-- ==== Sys2Proof/Word.lean ====
section
/-! DEFINITION. The value types of LEDFADE: command and response words, masks, channels, directions, and a
triple with one entry per channel. -/

namespace Sys2Proof

/-- A command word or a response word: 8 bits (30_encoding.md R57, R58; 00_scope.md section 7, "Widths"). -/
abbrev Word8 := BitVec 8

/-- The aggregate LED state, 3 bits, bit `c` for LED `c` (10_state.md R17). -/
abbrev Mask := BitVec 3

/-- The three channels; channel `c` drives LED `c` (00_scope.md R10). A channel number is also the address of the
channel's word in the compare space, and there is no fourth address and no way to form one (20_memory.md R42). -/
inductive Ch where
  | c0 | c1 | c2
deriving DecidableEq, Repr

/-- The colours of the LEDs (00_scope.md R10). -/
inductive Colour where
  | red | green | blue
deriving DecidableEq, Repr

/-- The number of a channel: its mask bit and its compare-space address (00_scope.md R10, 20_memory.md R42). -/
def Ch.idx : Ch → Nat
  | .c0 => 0
  | .c1 => 1
  | .c2 => 2

/-- The address map of the compare space by colour: LED0 red, LED1 green, LED2 blue (00_scope.md R10, 20_memory.md R42). -/
def Ch.colour : Ch → Colour
  | .c0 => .red
  | .c1 => .green
  | .c2 => .blue

/-- The channels in the order the spec evaluates them (41_fade_engine.md R85). -/
def Ch.all : List Ch := [.c0, .c1, .c2]

/-- A target direction (10_state.md R15). -/
inductive Dir where
  | falling | rising
deriving DecidableEq, Repr

/-- The encoding of a direction: `RISING = 1`, `FALLING = 0` (10_state.md R15, 92_eei_decisions.md D9). -/
def Dir.bit : Dir → Bool
  | .falling => false
  | .rising => true

/-- One value per channel: the indexed fields `F[c]` of the state record (10_state.md R13). -/
structure Tri (α : Type) where
  c0 : α
  c1 : α
  c2 : α
deriving DecidableEq, Repr

namespace Tri

variable {α : Type}

/-- The same value for all three channels. -/
def all (a : α) : Tri α := ⟨a, a, a⟩

/-- Read element `c` of an indexed field (00_scope.md section 7, "State access"). -/
def get (t : Tri α) : Ch → α
  | .c0 => t.c0
  | .c1 => t.c1
  | .c2 => t.c2

/-- Write element `c` of an indexed field (00_scope.md section 7, "State access"). -/
def set (t : Tri α) (c : Ch) (a : α) : Tri α :=
  match c with
  | .c0 => { t with c0 := a }
  | .c1 => { t with c1 := a }
  | .c2 => { t with c2 := a }

/-- The triple whose element `c` is `f c`. -/
def ofFn (f : Ch → α) : Tri α := ⟨f .c0, f .c1, f .c2⟩

end Tri

end Sys2Proof
end

