-- ==== Sys2Proof/Config.lean ====
section
/-! DEFINITION. The implementation parameters of LEDFADE, all of them open in the spec (00_scope.md R4 to R9). -/

namespace Sys2Proof

/-- The open parameters, as raw naturals (00_scope.md R4 to R9; 92_eei_decisions.md, "Open parameters a model takes as
arguments"). They are synthesis constants, not writable registers (10_state.md R29). Whether they make sense together
is `Params.wf` (R11), in WellFormed.lean. -/
structure Params where
  /-- `W`, the register width in bits (R4). -/
  w : Nat
  /-- `TOP0`, the PWM timer's top value (R5). -/
  top0 : Nat
  /-- `TOP1`, the tick timer's top value (R6). -/
  top1 : Nat
  /-- `DIV[0]`, power and slowdown divisor of channel 0 (R7). -/
  div0 : Nat
  /-- `DIV[2]`, power and slowdown divisor of channel 2 (R7). -/
  div2 : Nat
  /-- `SDINIT[0]`, reset value of the slowdown counter of channel 0 (R9). -/
  sdinit0 : Nat
  /-- `SDINIT[2]`, reset value of the slowdown counter of channel 2 (R9). -/
  sdinit2 : Nat
deriving DecidableEq, Repr

end Sys2Proof
end

