-- ==== Sys2Proof/Syntax.lean ====
section
/-! DEFINITION. The operations of LEDFADE, the input lines they arrive on, the input of one clock cycle, and the items
of a trace. -/

namespace Sys2Proof

/-- The seven rows of the opcode table: the block's operations (30_encoding.md R56). -/
inductive Instr where
  /-- GETST, read the aggregate LED state (40_host_commands.md R72). -/
  | getst
  /-- SETST, set the desired state of the three LEDs; `m` is the mask operand (R73). A mask outside `0..7` cannot be
  expressed (30_encoding.md R59). -/
  | setst (m : Mask)
  /-- RUN, enable the tick timer (R76). -/
  | run
  /-- T0CLK, one count of the PWM timer (42_timer_events.md R98). -/
  | t0clk
  /-- T1CLK, one count of the tick timer (R101). -/
  | t1clk
  /-- SVC, serve one pending tick (41_fade_engine.md R80). -/
  | svc
  /-- RESET (70_reset_and_hazards.md R132). -/
  | reset
deriving DecidableEq, Repr

/-- The lines of format EVT and, for the internal SVC, the state bit `TICKPEND` that stands in their place
(30_encoding.md R65, opcode_table.json). -/
inductive Line where
  | rst | t0clkEn | t1clkEn | tickpend
deriving DecidableEq, Repr

/-- What selects an operation: a command word on `cmd`, or a line whose value is 1 (30_encoding.md R58, R65). -/
inductive Signal where
  | cmd (w : Word8)
  | event (l : Line)
deriving DecidableEq, Repr

/-- The input ports of the block in one clock cycle (30_encoding.md R57). `engineEn` is the model's own: whether the
engine has its turn in this cycle. It is 1 in a clocked implementation, which serves a pending tick in the cycle
(60_exceptions.md R117); with 0 every interleaving of 00_scope.md R3 can be written as a list of cycles
(notes/assumptions/3.md). -/
structure Cycle where
  rst : Bool
  cmdValid : Bool
  cmd : Word8
  t0clkEn : Bool
  t1clkEn : Bool
  engineEn : Bool
deriving DecidableEq, Repr

namespace Cycle

/-- A cycle in which every input line is 0 and the engine has its turn. A host that wants to do nothing presents no
command (30_encoding.md R64). -/
def idle : Cycle := ⟨false, false, 0, false, false, true⟩

/-- A cycle in which the host presents the command word `w` and nothing else is due but the engine. -/
def command (w : Word8) : Cycle := { idle with cmdValid := true, cmd := w }

/-- A cycle in which the operation that the signal selects is the only one asked for. -/
def ofSignal : Signal → Cycle
  | .cmd w => command w
  | .event .rst => { idle with rst := true }
  | .event .t0clkEn => { idle with t0clkEn := true }
  | .event .t1clkEn => { idle with t1clkEn := true }
  | .event .tickpend => idle

end Cycle

/-- One item of a trace (30_encoding.md R68): an operation, a raw command word, or one of the pseudo-operations TICK (R69)
and PERIOD (R70). -/
inductive Item where
  | op (i : Instr)
  | cmd (w : Word8)
  | tick
  | period
deriving DecidableEq, Repr

/-- A trace: items with their repeat counts, applied left to right (30_encoding.md R68). -/
abbrev Trace := List (Item × Nat)

/-- A step of a host-level program in the document's own terms (30_encoding.md R67). -/
inductive HostCall where
  | setLedsPwm (m : Mask)
  | getLedsPwm
  | afterTicks (n : Nat)
deriving DecidableEq, Repr

end Sys2Proof
end

