-- ==== Sys2Proof/WellFormed.lean ====
section
/-! DEFINITION. Well-formed configurations (00_scope.md R11), the parameters paired with their well-formedness, and the
one configuration of which nothing is known. Every term of `Instr` is well formed: its only operand is a 3-bit mask and
all 8 masks are legal (40_host_commands.md R73). -/

namespace Sys2Proof

namespace Params

/-- `DIV[0] >= 1` (R11). -/
abbrev div0Positive (p : Params) : Prop := 1 ≤ p.div0

/-- `DIV[2] >= 1` (R11). -/
abbrev div2Positive (p : Params) : Prop := 1 ≤ p.div2

/-- `1 <= SDINIT[0] <= DIV[0]` (R11). -/
abbrev sdinit0InRange (p : Params) : Prop := 1 ≤ p.sdinit0 ∧ p.sdinit0 ≤ p.div0

/-- `1 <= SDINIT[2] <= DIV[2]` (R11). -/
abbrev sdinit2InRange (p : Params) : Prop := 1 ≤ p.sdinit2 ∧ p.sdinit2 ≤ p.div2

/-- `TOP0 <= 2^W - 1` (R11). -/
abbrev top0Fits (p : Params) : Prop := p.top0 ≤ 2 ^ p.w - 1

/-- `TOP1 <= 2^W - 1` (R11). -/
abbrev top1Fits (p : Params) : Prop := p.top1 ≤ 2 ^ p.w - 1

/-- A well-formed configuration (00_scope.md R11). -/
abbrev wf (p : Params) : Prop :=
  p.div0Positive ∧ p.div2Positive ∧ p.sdinit0InRange ∧ p.sdinit2InRange ∧ p.top0Fits ∧ p.top1Fits

end Params

/-- A configuration: parameters together with the proof that they are well formed. A configuration that is not well
formed is refused (R11): it cannot be made into a `Config`, and `State.powerOn` refuses it by name. -/
structure Config where
  params : Params
  ok : params.wf
deriving DecidableEq, Repr

/-- A configuration of which nothing is known, beyond that it is well formed. It has no body, so nothing can be proved of
its parameters that does not hold of every well-formed configuration (92_eei_decisions.md D3 to D5, D7: "OPEN").
The argument says only that some configuration exists. -/
opaque Config.boardOf [Inhabited Config] : Config

/-- The configuration of the board this block is built for: open (notes/assumptions/1.md). -/
def Config.board : Config :=
  @Config.boardOf ⟨⟨⟨0, 0, 0, 1, 1, 1, 1⟩, by decide⟩⟩

/-- Every instruction term is well formed: SETST's operand is 3 bits wide by type and all 8 masks are legal
(40_host_commands.md R73). -/
abbrev Instr.wf (_ : Instr) : Prop := True

end Sys2Proof
end

