-- ==== Sys2Proof/Decode.lean ====
section
/-! DEFINITION. The fields of a command word, decoding (total, rejecting by name), encoding, and the opcode table. -/

namespace Sys2Proof

/-- Field `op`, bits 7:6 of a command word (30_encoding.md R58). -/
def opField (w : Word8) : BitVec 2 := w.extractLsb' 6 2

/-- Field `rsv`, bits 5:3 of a command word (R58). -/
def rsvField (w : Word8) : BitVec 3 := w.extractLsb' 3 3

/-- Field `m`, bits 2:0 of a command word: the mask operand of SETST, used as it stands (R58, R59). -/
def mField (w : Word8) : Mask := w.extractLsb' 0 3

/-- Why a command word is reserved (30_encoding.md R63). The machine answers all of them alike, by `CmdReject`
(60_exceptions.md R110); the names are the model's own. -/
inductive Reject where
  /-- `rsv` is not `000`. -/
  | reservedBits
  /-- GETST with a nonzero `m`. -/
  | getstOperand
  /-- RUN with a nonzero `m`. -/
  | runOperand
  /-- `op` is `11`. -/
  | reservedOp
deriving DecidableEq, Repr

/-- `Decode` of 30_encoding.md R66: total, the first line that applies. -/
def decodeCmd (w : Word8) : Except Reject Instr :=
  if rsvField w ≠ 0 then .error .reservedBits
  else if opField w = 0b00#2 then (if mField w = 0 then .ok .getst else .error .getstOperand)
  else if opField w = 0b01#2 then .ok (.setst (mField w))
  else if opField w = 0b10#2 then (if mField w = 0 then .ok .run else .error .runOperand)
  else .error .reservedOp

/-- The operation a line performs in a step in which it is 1 (30_encoding.md R65). -/
def decodeLine : Line → Instr
  | .rst => .reset
  | .t0clkEn => .t0clk
  | .t1clkEn => .t1clk
  | .tickpend => .svc

/-- Decoding of whatever selects an operation (30_encoding.md R65, R66). No mode and no state field changes decoding
(R38). -/
def decode : Signal → Except Reject Instr
  | .cmd w => decodeCmd w
  | .event l => .ok (decodeLine l)

/-- The instruction the decoder reads from the low `nbits` bits `w` of an instruction. CMD8 is the one format of words
and has one length of 8 bits (30_encoding.md R58, R38), so bits above 7 must be 0. The events and SVC are lines, not
words (R65): no word decodes to one of them (notes/assumptions/5.md). -/
def decodeTableWord (nbits w : Nat) : Option Instr :=
  if w % 2 ^ nbits < 256 then
    match decodeCmd (BitVec.ofNat 8 (w % 2 ^ nbits)) with
    | .ok i => some i
    | .error _ => none
  else none

/-- `Encode` (30_encoding.md R60 to R62, R65, R66): the signal that selects the operation. `Encode(SETST m) = 0x40 + m`. -/
def encode : Instr → Signal
  | .getst => .cmd 0x00
  | .setst m => .cmd (0x40 + m.setWidth 8)
  | .run => .cmd 0x80
  | .t0clk => .event .t0clkEn
  | .t1clk => .event .t1clkEn
  | .svc => .event .tickpend
  | .reset => .event .rst

/-- Where the bits of a row of the opcode table stand: a command word, or one line. -/
inductive Format where
  | cmd8
  | evt (l : Line)
deriving DecidableEq, Repr

/-- A row of the opcode table: where its bits stand, its mask and its match. -/
structure Row where
  format : Format
  mask : Word8
  pattern : Word8
deriving DecidableEq, Repr

/-- Does a signal fall under a row? A line that is 1 has the one-bit word 1. -/
def Row.covers (r : Row) : Signal → Bool
  | .cmd w => r.format = .cmd8 && w &&& r.mask = r.pattern
  | .event l => r.format = .evt l && (1 : Word8) &&& r.mask = r.pattern

/-- The opcode table's row of each operation (30_encoding.md R60 to R62, R65). -/
def Instr.row : Instr → Row
  | .getst => ⟨.cmd8, 0xFF, 0x00⟩
  | .setst _ => ⟨.cmd8, 0xF8, 0x40⟩
  | .run => ⟨.cmd8, 0xFF, 0x80⟩
  | .t0clk => ⟨.evt .t0clkEn, 0x1, 0x1⟩
  | .t1clk => ⟨.evt .t1clkEn, 0x1, 0x1⟩
  | .svc => ⟨.evt .tickpend, 0x1, 0x1⟩
  | .reset => ⟨.evt .rst, 0x1, 0x1⟩

/-- The opcode table, in the table's order. -/
def opcodeTable : List Row :=
  [Instr.getst.row, (Instr.setst 0).row, Instr.run.row, Instr.t0clk.row, Instr.t1clk.row, Instr.svc.row, Instr.reset.row]

end Sys2Proof
end

