-- ==== Sys2Proof/Machine/State.lean ====
section
/-! DEFINITION. The state of LEDFADE as plain data, its faults and refusals, and the state after reset. -/

namespace Sys2Proof.Machine

/-- Response status codes (60_exceptions.md R112). -/
inductive Status where
  /-- The command was GETST, SETST or RUN and was performed. -/
  | ok
  /-- The word was reserved: `CmdReject`. -/
  | reject
deriving DecidableEq, Repr

/-- The code of a status on the port `rsp_status`: 0 `OK`, 1 `REJECT` (60_exceptions.md R112). -/
def Status.bit : Status → Bool
  | .ok => false
  | .reject => true

/-- The state record of 10_state.md R13, the response ports of 30_encoding.md R57, and the model's own two fields `inputs`
and `cfg`. -/
structure State where
  /-- The parameters: not state, and changed by no operation (10_state.md R29; notes/assumptions/1.md). -/
  cfg : Config
  /-- `DUTY[c]`, the duty counters (10_state.md R14). -/
  duty : Tri Nat
  /-- `DIR[c]`, the target directions (R15). -/
  dir : Tri Dir
  /-- `SDCNT[0]`, the slowdown counter of channel 0 (R16). -/
  sdcnt0 : Nat
  /-- `SDCNT[2]`, the slowdown counter of channel 2 (R16). -/
  sdcnt2 : Nat
  /-- `MASK`, the aggregate LED state (R17). -/
  mask : Mask
  /-- `CCVB[c]`, the buffered compare values (R19). -/
  ccvb : Tri Nat
  /-- `CCV[c]`, the compare values in effect (R20). -/
  ccv : Tri Nat
  /-- `TICKPEND`, the tick timer's overflow flag (R23). -/
  tickpend : Bool
  /-- `RUN`, the tick timer's enable (R24). -/
  run : Bool
  /-- `CNT0`, the PWM timer's counter (R25). -/
  cnt0 : Nat
  /-- `CNT1`, the tick timer's counter (R26). -/
  cnt1 : Nat
  /-- Port `rsp_status`: response status of the command just performed (30_encoding.md R57). -/
  rspStatus : Status
  /-- Port `rsp`: response data of the command just performed (R57, R59). -/
  rsp : Word8
  /-- The input lines of the present cycle (the head) and of the cycles to come; where the list ends every line is 0
  from then on (notes/assumptions/3.md). -/
  inputs : List Cycle
deriving DecidableEq, Repr

/-- Why the machine stops. -/
inductive Fault where
  /-- Raised by SVC where `TICKPEND = 0`: there is no such step (41_fade_engine.md R80, 93_implementation_defined.md U15,
  "stuck"). Safe: the machine itself never performs SVC there. -/
  | svcNotEnabled
  /-- Raised by `SetDuty(c, v)` where `v > TOP0`, outside its precondition (20_memory.md R43, U3). Safe: it is the
  treatment the spec asks for, and the engine never does it from a state with the invariants of 10_state.md R34. -/
  | setDutyRange
deriving DecidableEq, Repr

/-- What the model refuses to give a meaning to. -/
inductive Refusal where
  /-- Raised by `exec` for an instruction that has no meaning yet (none here). Safe. -/
  | notModelled (mnemonic : String)
  /-- Raised by `State.powerOn` for parameters that are not well formed (00_scope.md R11, U18). Safe. -/
  | illFormedConfig
  /-- Raised by the trace performer for TICK where `RUN = 0` or `TICKPEND = 1`: the pseudo-operation is not defined there
  (30_encoding.md R69). Safe: no operation of the block raises it. -/
  | tickUndefined
deriving DecidableEq, Repr

/-- The reset values of 10_state.md R33 in a configuration. The response ports are the model's choice
(notes/assumptions/2.md); no input line is raised (notes/assumptions/3.md). -/
def State.resetOf (cfg : Config) : State where
  cfg := cfg
  duty := Tri.all 0
  dir := Tri.all .falling
  sdcnt0 := cfg.params.sdinit0
  sdcnt2 := cfg.params.sdinit2
  mask := 0
  ccvb := Tri.all 0
  ccv := Tri.all 0
  tickpend := false
  run := false
  cnt0 := 0
  cnt1 := 0
  rspStatus := .ok
  rsp := 0
  inputs := []

/-- The machine right after reset (10_state.md R33), in the configuration of which nothing is known. -/
def State.reset : State := State.resetOf Config.board

end Sys2Proof.Machine
end

