-- ==== Sys2Proof/Machine/Operands.lean ====
section
/-! DEFINITION. The operand and result forms: the mask operand as directions, the response word, and the channel
parameters derived from the configuration. -/

namespace Sys2Proof.Machine

/-- Bit `c` of a mask, for LED `c` (00_scope.md R10). -/
def maskBit (m : Mask) (c : Ch) : Bool := m.getLsbD c.idx

/-- The direction a mask asks of channel `c`: bit set, RISING; bit clear, FALLING (40_host_commands.md R73). -/
def maskDir (m : Mask) (c : Ch) : Dir := if maskBit m c then .rising else .falling

/-- The three directions a mask asks for (40_host_commands.md R73). -/
def maskDirs (m : Mask) : Tri Dir := Tri.ofFn (maskDir m)

/-- `zext_8(MASK)`, the response data of GETST (30_encoding.md R59). -/
def maskResponse (m : Mask) : Word8 := m.setWidth 8

/-- `DIV[c]`, with the convention `DIV[1] = 1` (00_scope.md R7). -/
def divOf (cfg : Config) : Ch → Nat
  | .c0 => cfg.params.div0
  | .c1 => 1
  | .c2 => cfg.params.div2

/-- `MAXDUTY[c]`: `TOP0` for channel 1, `TOP0 div DIV[c]` (floor) for channels 0 and 2 (00_scope.md R8). -/
def maxDuty (cfg : Config) : Ch → Nat
  | .c0 => cfg.params.top0 / cfg.params.div0
  | .c1 => cfg.params.top0
  | .c2 => cfg.params.top0 / cfg.params.div2

end Sys2Proof.Machine
end

