-- ==== Sys2Proof/Machine/Flags.lean ====
section
/-! DEFINITION. The flags: the directions `DIR[c]`, the tick flag `TICKPEND`, and the tick timer's enable `RUN`. -/

namespace Sys2Proof.Machine

/-- Write all three directions and the mask from one mask, in one step (40_host_commands.md R73, 20_memory.md R48). -/
def State.setTargets (s : State) (m : Mask) : State := { s with dir := maskDirs m, mask := m }

/-- `TICKPEND <- 1`: the tick timer wrapped (42_timer_events.md R101). A flag that is 1 already stays 1 (R102). -/
def State.raiseTick (s : State) : State := { s with tickpend := true }

/-- `TICKPEND <- 0`: the end of SVC, which is all there is of a return from the tick (60_exceptions.md R119). -/
def State.clearTick (s : State) : State := { s with tickpend := false }

/-- `RUN <- 1`: enable the tick timer and its overflow condition (40_host_commands.md R76). -/
def State.enableTicks (s : State) : State := { s with run := true }

end Sys2Proof.Machine
end

