-- ==== Sys2Proof/Machine/Ops.lean ====
section
/-! DEFINITION. The named operations over registers, the compare space and the response ports; taking the one exception;
and the order in which outcomes are chained. -/

namespace Sys2Proof.Machine

/-- Go on with `f` where the outcome is a next state; a fault or a refusal stays what it is. -/
def andThen (o : Host.Outcome State Fault Refusal) (f : State → Host.Outcome State Fault Refusal) :
    Host.Outcome State Fault Refusal :=
  match o with
  | .next s => f s
  | .fault r => .fault r
  | .refused r => .refused r

/-- The response of the command just performed (30_encoding.md R57, R59). -/
def State.respond (s : State) (st : Status) (data : Word8) : State := { s with rspStatus := st, rsp := data }

/-- Taking the block's only exception, `CmdReject` (60_exceptions.md R110): status REJECT, data 0x00, and no field of the
state read or written. Nothing is saved, so there is nothing to return from: the next command is decoded afresh. -/
def State.cmdReject (s : State) : State := s.respond .reject 0

/-- Write the duty counter of channel `c`. -/
def State.withDuty (s : State) (c : Ch) (v : Nat) : State := { s with duty := s.duty.set c v }

/-- `MemWrite(c, 1, v)`: write one whole word of the compare buffer (00_scope.md section 7, 20_memory.md R40). -/
def State.memWrite (s : State) (c : Ch) (v : Nat) : State := { s with ccvb := s.ccvb.set c v }

/-- `MemRead(c, 1)`: read one whole word of the compare buffer; no side effect (00_scope.md section 7, 20_memory.md R46). -/
def State.memRead (s : State) (c : Ch) : Nat := s.ccvb.get c

/-- `SetDuty(c, v)` (20_memory.md R43): write the buffer of channel `c` and nothing else. Outside the precondition
`v <= TOP0` it is a fault, not a value (R43, 93_implementation_defined.md U3). -/
def State.setDuty (s : State) (c : Ch) (v : Nat) : Except Fault State :=
  if v ≤ s.cfg.params.top0 then .ok (s.memWrite c v) else .error .setDutyRange

/-- `PeriodLatch()` (42_timer_events.md R100): the three buffers become the active compare values. -/
def State.periodLatch (s : State) : State := { s with ccv := Tri.ofFn s.memRead }

/-- `SDCNT[c]`; for channel 1, which has none, the constant 1 that 10_state.md R16 allows in its place. -/
def State.sdcnt (s : State) : Ch → Nat
  | .c0 => s.sdcnt0
  | .c1 => 1
  | .c2 => s.sdcnt2

/-- `OUT[c]`, the logical PWM output: active while the counter is below the compare value in effect
(42_timer_events.md R105). -/
def State.out (s : State) (c : Ch) : Bool := decide (s.cnt0 < s.ccv.get c)

/-- The output port `out[2:0]`, bit `c` being `OUT[c]` (30_encoding.md R57). -/
def State.outPort (s : State) : BitVec 3 :=
  BitVec.ofBool (s.out .c2) ++ BitVec.ofBool (s.out .c1) ++ BitVec.ofBool (s.out .c0)

/-- RESET's writes: every field at its value of 10_state.md R33 (70_reset_and_hazards.md R132), the response ports as after
power-on (notes/assumptions/2.md). The parameters stay (R136) and so do the input lines of the cycles to come, which are
the environment's. -/
def State.resetFields (s : State) : State := { State.resetOf s.cfg with inputs := s.inputs }

/-- Power-on in a configuration given by its raw parameters; one that is not well formed is refused (00_scope.md R11,
93_implementation_defined.md U18). -/
def State.powerOn (p : Params) : Host.Outcome State Fault Refusal :=
  if h : p.wf then .next (State.resetOf ⟨p, h⟩) else .refused .illFormedConfig

end Sys2Proof.Machine
end

