-- ==== Sys2Proof/Machine/Engine.lean ====
section
/-! DEFINITION. The stepping engine: `Gate`, `Step`, `Advance` and the operation SVC (41_fade_engine.md). -/

namespace Sys2Proof.Machine

/-- `Gate(c)` (R82): channel 1 always; channels 0 and 2 when the slowdown counter equals the divisor. -/
def State.gate (s : State) : Ch → Bool
  | .c0 => s.sdcnt0 = s.cfg.params.div0
  | .c1 => true
  | .c2 => s.sdcnt2 = s.cfg.params.div2

/-- The guards of `Step(c)` (R81, with the strict rising guard of R87): the new duty, or none at the bound. -/
def State.stepTarget (s : State) (c : Ch) : Option Nat :=
  if s.dir.get c = .rising ∧ s.duty.get c < maxDuty s.cfg c then some (s.duty.get c + 1)
  else if s.dir.get c = .falling ∧ 0 < s.duty.get c then some (s.duty.get c - 1)
  else none

/-- `Step(c)` (R81): move the duty one unit and push the new value, or do nothing at all at the bound (R86). -/
def State.stepChannel (s : State) (c : Ch) : Except Fault State :=
  match s.stepTarget c with
  | none => .ok s
  | some v => (s.withDuty c v).setDuty c v

/-- `if Gate(c) then Step(c)` (R80). A channel at its bound is passed over before its gate is looked at, which comes to
the same (`State.gatedStep_eq`). -/
def State.gatedStep (s : State) (c : Ch) : Except Fault State :=
  match s.stepTarget c with
  | none => .ok s
  | some _ => if s.gate c then s.stepChannel c else .ok s

/-- The position after `n` in the cycle `1, 2, …, d, 1, …` (R83). -/
def advanceCount (d n : Nat) : Nat := if n = d then 1 else n + 1

/-- `Advance(c)` (R83): the slowdown counter of a divided channel moves on; channel 1 has none. -/
def State.advance (s : State) : Ch → State
  | .c0 => { s with sdcnt0 := advanceCount s.cfg.params.div0 s.sdcnt0 }
  | .c1 => s
  | .c2 => { s with sdcnt2 := advanceCount s.cfg.params.div2 s.sdcnt2 }

/-- The gated steps of one tick, in the order 0, 1, 2 (R80, R85). No step touches a slowdown counter, so every gate reads
the counters as they were before the SVC. -/
def State.stepAll (s : State) : Except Fault State :=
  (s.gatedStep .c0).bind fun s0 => (s0.gatedStep .c1).bind fun s1 => s1.gatedStep .c2

/-- SVC (R80): act on all three channels, advance both slowdown counters, clear the tick, in one step. Where no tick is
pending there is no SVC step (R80, 93_implementation_defined.md U15). -/
def execSvc (s : State) : Host.Outcome State Fault Refusal :=
  if s.tickpend then
    match s.stepAll with
    | .ok s' => .next ((s'.advance .c0).advance .c2).clearTick
    | .error f => .fault f
  else .fault .svcNotEnabled

end Sys2Proof.Machine
end

