-- ==== Sys2Proof/Machine/HostCommands.lean ====
section
/-! DEFINITION. The operations of the HOST agent: GETST, SETST, RUN (40_host_commands.md). -/

namespace Sys2Proof.Machine

/-- GETST (R72): the response is the mask last set, the target and not the duty reached (R75). No other effect. -/
def execGetst (s : State) : Host.Outcome State Fault Refusal :=
  .next (s.respond .ok (maskResponse s.mask))

/-- SETST (R73): the three directions and the mask in one step. No duty moves and no counter is touched. -/
def execSetst (m : Mask) (s : State) : Host.Outcome State Fault Refusal :=
  .next ((s.setTargets m).respond .ok 0)

/-- RUN (R76): enable the tick timer; `CNT1` and `TICKPEND` are not touched (92_eei_decisions.md D20). -/
def execRun (s : State) : Host.Outcome State Fault Refusal :=
  .next (s.enableTicks.respond .ok 0)

end Sys2Proof.Machine
end

