-- ==== Sys2Proof/Machine/Reset.lean ====
section
/-! DEFINITION. The operation RESET (70_reset_and_hazards.md). -/

namespace Sys2Proof.Machine

/-- RESET (R132): every field takes its reset value, whatever the state was. -/
def execReset (s : State) : Host.Outcome State Fault Refusal := .next s.resetFields

end Sys2Proof.Machine
end

