-- ==== Sys2Proof/Machine/Timers.lean ====
section
/-! DEFINITION. The operations of the two timers: T0CLK and T1CLK (42_timer_events.md). -/

namespace Sys2Proof.Machine

/-- One count of the PWM timer: at the top, wrap to 0 and latch the buffered compare values in the same step (R98). -/
def State.countPwm (s : State) : State :=
  if s.cnt0 = s.cfg.params.top0 then { s with cnt0 := 0 }.periodLatch else { s with cnt0 := s.cnt0 + 1 }

/-- One count of the tick timer: held while disabled; at the top, wrap to 0 and raise the tick (R101, R102). -/
def State.countTick (s : State) : State :=
  if s.run then
    if s.cnt1 = s.cfg.params.top1 then { s with cnt1 := 0 }.raiseTick else { s with cnt1 := s.cnt1 + 1 }
  else s

/-- T0CLK (R98). -/
def execT0clk (s : State) : Host.Outcome State Fault Refusal := .next s.countPwm

/-- T1CLK (R101). -/
def execT1clk (s : State) : Host.Outcome State Fault Refusal := .next s.countTick

end Sys2Proof.Machine
end

