-- ==== Sys2Proof/Machine/Dispatch.lean ====
section
/-! DEFINITION. The meaning of every operation, one arm each. -/

namespace Sys2Proof.Machine

def exec (i : Instr) (s : State) : Host.Outcome State Fault Refusal :=
  match i with
  | .getst => Sys2Proof.Machine.execGetst s
  | .setst m => Sys2Proof.Machine.execSetst m s
  | .run => Sys2Proof.Machine.execRun s
  | .t0clk => Sys2Proof.Machine.execT0clk s
  | .t1clk => Sys2Proof.Machine.execT1clk s
  | .svc => Sys2Proof.Machine.execSvc s
  | .reset => Sys2Proof.Machine.execReset s

end Sys2Proof.Machine
end

