-- ==== Sys2Proof/Machine/Ports.lean ====
section
/-! DEFINITION. The input ports: which operation is due in the present cycle, what is left of the cycle once it is taken,
and what performing a signal does. This stands where another machine fetches an instruction. -/

namespace Sys2Proof.Machine

/-- The input lines of the present cycle. -/
def State.ports (s : State) : Cycle := s.inputs.headD Cycle.idle

/-- The first operation due, in the fixed order of 60_exceptions.md R117: RESET, the host command, T0CLK, T1CLK, SVC. -/
def State.due (s : State) : Option Signal :=
  if s.ports.rst then some (.event .rst)
  else if s.ports.cmdValid then some (.cmd s.ports.cmd)
  else if s.ports.t0clkEn then some (.event .t0clkEn)
  else if s.ports.t1clkEn then some (.event .t1clkEn)
  else if s.ports.engineEn && s.tickpend then some (.event .tickpend)
  else none

/-- The present cycle is over. -/
def State.endCycle (s : State) : State := { s with inputs := s.inputs.tail }

/-- The present cycle goes on with the lines `p`. -/
def State.withPorts (s : State) (p : Cycle) : State := { s with inputs := p :: s.inputs.tail }

/-- Take an operation out of the present cycle. RESET drops everything else due in the cycle, and SVC comes last in it
(60_exceptions.md R117). -/
def State.consume (s : State) : Signal → State
  | .cmd _ => s.withPorts { s.ports with cmdValid := false }
  | .event .t0clkEn => s.withPorts { s.ports with t0clkEn := false }
  | .event .t1clkEn => s.withPorts { s.ports with t1clkEn := false }
  | .event .rst => s.endCycle
  | .event .tickpend => s.endCycle

/-- Perform what a signal selects: the operation it decodes to, or `CmdReject` for a reserved word (60_exceptions.md R110),
after which the run goes on. -/
def perform (sig : Signal) (s : State) : Host.Outcome State Fault Refusal :=
  match decode sig with
  | .ok i => exec i s
  | .error _ => .next s.cmdReject

/-- The command word of `nbits` bits that `w` stands for, as the input of the very next cycle. A number that does not fit
the 8 bits of a command word is not presented. -/
def State.presentWord (s : State) (nbits w : Nat) : State :=
  if w % 2 ^ nbits < 256 then { s with inputs := Cycle.command (BitVec.ofNat 8 (w % 2 ^ nbits)) :: s.inputs } else s

/-- Present a signal in the very next cycle. For SVC, which has no input line, the line is the state bit `TICKPEND`
(30_encoding.md R65). -/
def State.presentSignal (s : State) (sig : Signal) : State :=
  { s with
    inputs := Cycle.ofSignal sig :: s.inputs
    tickpend := s.tickpend || sig = .event .tickpend }

end Sys2Proof.Machine
end

