-- ==== Sys2Proof/Machine/Step.lean ====
section
/-! DEFINITION. One step of the machine: one atomic operation (00_scope.md R3). -/

namespace Sys2Proof.Machine

/-- One step: the first operation due in the present cycle is taken out of it and performed; where nothing is due the
cycle ends (00_scope.md R3, 60_exceptions.md R117, notes/assumptions/3.md). -/
def step (s : State) : Host.Outcome State Fault Refusal :=
  match s.due with
  | some sig => perform sig (s.consume sig)
  | none => .next s.endCycle

/-- `s` with the command word `w` of `nbits` bits presented in the very next cycle (notes/assumptions/5.md). -/
def State.withFetchWord (s : State) (nbits w : Nat) : State := s.presentWord nbits w

end Sys2Proof.Machine
end

