-- ==== Sys2Proof/Machine/Traces.lean ====
section
/-! DEFINITION. Traces of operations (30_encoding.md R67 to R70): their performance, the pseudo-operations TICK and PERIOD,
host-level programs, what is performed along a run of the machine, and the trace's text. -/

namespace Sys2Proof.Machine

/-- Perform operations one after another. -/
def runOps : List Instr → State → Host.Outcome State Fault Refusal
  | [], s => .next s
  | i :: is, s => andThen (exec i s) (runOps is)

/-- `op*n`: perform `f` `n` times (30_encoding.md R68). -/
def repeatOp (f : State → Host.Outcome State Fault Refusal) : Nat → State → Host.Outcome State Fault Refusal
  | 0, s => .next s
  | n + 1, s => andThen (f s) (repeatOp f n)

/-- TICK = T1CLK * (TOP1 + 1) ; SVC, defined where `RUN = 1` and `TICKPEND = 0` (30_encoding.md R69). -/
def tick (s : State) : Host.Outcome State Fault Refusal :=
  if s.run && !s.tickpend then andThen (repeatOp (exec .t1clk) (s.cfg.params.top1 + 1) s) (exec .svc)
  else .refused .tickUndefined

/-- PERIOD = T0CLK * (TOP0 + 1) (30_encoding.md R70). -/
def period (s : State) : Host.Outcome State Fault Refusal :=
  repeatOp (exec .t0clk) (s.cfg.params.top0 + 1) s

/-- Perform one item of a trace. -/
def performItem : Item → State → Host.Outcome State Fault Refusal
  | .op i => exec i
  | .cmd w => perform (.cmd w)
  | .tick => tick
  | .period => period

/-- Perform a trace, left to right (30_encoding.md R68). -/
def performTrace : Trace → State → Host.Outcome State Fault Refusal
  | [], s => .next s
  | (x, n) :: t, s => andThen (repeatOp (performItem x) n s) (performTrace t)

/-- The trace item of a host-level call: word for word (30_encoding.md R67, R71). -/
def hostCallItem : HostCall → Item × Nat
  | .setLedsPwm m => (.op (.setst m), 1)
  | .getLedsPwm => (.op .getst, 1)
  | .afterTicks n => (.tick, n)

/-- Is the call a passing of ticks? DESIGN CHOICE: `after 0 ticks` counts as one, though its `TICK*0` performs no TICK; R67
leaves that open (notes/assumptions/19.md). -/
def awaitsTicks : HostCall → Bool
  | .afterTicks _ => true
  | _ => false

/-- The trace of a host-level program (30_encoding.md R67): word for word, with the RUN that must precede the first TICK and
that the document's scenarios leave unsaid. The RUN stands in front of the program, as in the traces of 95_test_vectors.md
V-S1, V-S3 and V-S4 (notes/assumptions/18.md); a program without ticks needs none, as in V-S2. DESIGN CHOICE: a program whose
only ticks are `after 0 ticks` gets the RUN, and so sets `RUN` (notes/assumptions/19.md). -/
def programTrace (p : List HostCall) : Trace :=
  if p.any awaitsTicks then (.op .run, 1) :: p.map hostCallItem else p.map hostCallItem

/-- The trace of a host-level program that starts with the boot of the block, as 95_test_vectors.md writes the document's
scenarios (70_reset_and_hazards.md R134, R135). -/
def bootTrace (p : List HostCall) : Trace := (.op .reset, 1) :: programTrace p

/-- The mask that `get_leds_pwm()` answers after a host-level program: the last one set in it, and where none is set the one
from before (40_host_commands.md R72). -/
def maskAfter (p : List HostCall) (m : Mask) : Mask :=
  p.foldl (fun m c => match c with | .setLedsPwm m' => m' | _ => m) m

/-- The signals performed in `n` steps of the machine, oldest first. A step in which nothing is due performs none. -/
def stepSignals : Nat → State → List Signal
  | 0, _ => []
  | n + 1, s =>
    s.due.toList ++
      match step s with
      | .next t => stepSignals n t
      | _ => []

/-- Perform what each of the signals selects, one after another. -/
def performAll : List Signal → State → Host.Outcome State Fault Refusal
  | [], s => .next s
  | sig :: sigs, s => andThen (perform sig s) (performAll sigs)

/-- At how many of the SVCs of a run the gate of channel `c` is open (41_fade_engine.md R91, R92). -/
def openGates (c : Ch) : List Instr → State → Nat
  | [], _ => 0
  | i :: is, s =>
    (if i = .svc ∧ s.gate c = true then 1 else 0) +
      match exec i s with
      | .next t => openGates c is t
      | _ => 0

/-- `mask ::= "0b" bit bit bit`, most significant bit (LED2) first (30_encoding.md R68). -/
def maskText (m : Mask) : String :=
  "0b" ++ String.ofList ([m.getLsbD 2, m.getLsbD 1, m.getLsbD 0].map fun b => if b then '1' else '0')

/-- `word ::= "0x" hex hex` (30_encoding.md R68). -/
def wordText (w : Word8) : String :=
  "0x" ++ String.ofList [(Nat.digitChar (w.toNat / 16)).toUpper, (Nat.digitChar (w.toNat % 16)).toUpper]

/-- `op` of the trace grammar (30_encoding.md R68). -/
def itemText : Item → String
  | .op .getst => "GETST"
  | .op (.setst m) => "SETST " ++ maskText m
  | .op .run => "RUN"
  | .op .t0clk => "T0CLK"
  | .op .t1clk => "T1CLK"
  | .op .svc => "SVC"
  | .op .reset => "RESET"
  | .cmd w => "cmd " ++ wordText w
  | .tick => "TICK"
  | .period => "PERIOD"

/-- The text of a trace in the grammar of 30_encoding.md R68; `op*1` is written without its count. -/
def traceText : Trace → String
  | [] => ""
  | [(x, n)] => itemText x ++ (if n = 1 then "" else "*" ++ toString n)
  | (x, n) :: t => itemText x ++ (if n = 1 then "" else "*" ++ toString n) ++ "; " ++ traceText t

end Sys2Proof.Machine
end

