-- ==== Sys2Proof/Safety.lean ====
section
/-! DEFINITION. What counts as a good state and a safe step: the invariants of 10_state.md R34, and runs in which the
engine always has its turn (60_exceptions.md R116). -/

namespace Sys2Proof.Machine

/-- The invariants of the reachable states (10_state.md R34), one field per clause. The well-formed configuration R34 asks
for is part of the state. -/
structure State.Inv (s : State) : Prop where
  /-- R34 clause 1: the duties keep their bounds. -/
  duty_le : ∀ c, s.duty.get c ≤ maxDuty s.cfg c
  /-- R34 clause 2: the slowdown counters of channels 0 and 2 stay in `1..DIV[c]`. -/
  sdcnt0_pos : 1 ≤ s.sdcnt0
  sdcnt0_le : s.sdcnt0 ≤ s.cfg.params.div0
  sdcnt2_pos : 1 ≤ s.sdcnt2
  sdcnt2_le : s.sdcnt2 ≤ s.cfg.params.div2
  /-- R34 clause 3: the directions are the mask's bits (R18). -/
  dir_mask : ∀ c, s.dir.get c = maskDir s.mask c
  /-- R34 clause 4: the buffered compare values are the duties (R21). -/
  ccvb_duty : ∀ c, s.ccvb.get c = s.duty.get c
  /-- R34 clause 5: the compare values in effect keep the duty bounds. -/
  ccv_le : ∀ c, s.ccv.get c ≤ maxDuty s.cfg c
  /-- R34 clause 6: the timer counters stay at most their tops. -/
  cnt0_le : s.cnt0 ≤ s.cfg.params.top0
  cnt1_le : s.cnt1 ≤ s.cfg.params.top1
  /-- R34 clause 7: nothing has ticked before the RUN command. -/
  idle : s.run = false → s.tickpend = false ∧ s.cnt1 = 0 ∧ ∀ c, s.duty.get c = 0

/-- The engine has its turn in every cycle to come, as in a clocked implementation (60_exceptions.md R117). -/
def State.Clocked (s : State) : Prop := ∀ p ∈ s.inputs, p.engineEn = true

/-- A pending tick is served before anything else happens: no line of the present cycle is still raised while a tick is
pending. It is how a clocked implementation meets the service obligation (60_exceptions.md R116, R117). -/
def State.TickFirst (s : State) : Prop :=
  s.tickpend = true → s.ports.rst = false ∧ s.ports.cmdValid = false ∧ s.ports.t0clkEn = false ∧ s.ports.t1clkEn = false

/-- The step goes on: no fault, no refusal. -/
def State.StepSafe (s : State) : Prop := ∃ t, step s = .next t

end Sys2Proof.Machine
end

