-- ==== Sys2Proof/Certificates/Slice0/Obligations.lean ====
section
/-! DEFINITION. The statements about the model, each from the numbered rules of the spec it names. -/

open Sys2Proof Sys2Proof.Machine

/-! ### Encoding -/

/-- 30_encoding.md R60, R61, R62: the matches and masks of the three host commands, with SETST's operand in bits 2:0. -/
def Obligations.CommandWordsMatchTheirMasks : Prop :=
  (∀ w : Word8, decodeCmd w = .ok .getst ↔ w &&& 0xFF = 0x00) ∧
  (∀ w : Word8, (∃ m, decodeCmd w = .ok (.setst m)) ↔ w &&& 0xF8 = 0x40) ∧
  (∀ m : Mask, decodeCmd (0x40 + m.setWidth 8) = .ok (.setst m)) ∧
  decodeCmd 0x42 = .ok (.setst 0b010) ∧
  (∀ w : Word8, decodeCmd w = .ok .run ↔ w &&& 0xFF = 0x80)

/-- A few command words written out bit by bit from 30_encoding.md R58, `op` then `rsv` then `m`, and what they decode to. -/
def Obligations.WrittenWordsDecode : Prop :=
  decodeTableWord 8 0b00000000 = some .getst ∧
  decodeTableWord 8 0b01000101 = some (.setst 0b101) ∧
  decodeTableWord 8 0b10000000 = some .run ∧
  decodeTableWord 8 0b10000001 = none ∧
  decodeTableWord 8 0b01001000 = none ∧
  decodeTableWord 8 0b11000000 = none ∧
  decode (.event .rst) = .ok .reset ∧
  decode (.event .t0clkEn) = .ok .t0clk ∧
  decode (.event .t1clkEn) = .ok .t1clk ∧
  decode (.event .tickpend) = .ok .svc

/-- 30_encoding.md R63: which words are reserved, how many of each there are, and that a reserved word changes no field of
the state and is answered with REJECT and 0x00. -/
def Obligations.ReservedWordsAreRejected : Prop :=
  (∀ w : Word8, (∃ r, decodeCmd w = .error r) ↔
    (w.toNat / 64 = 3 ∨ w.toNat / 8 % 8 ≠ 0 ∨ (0x01 ≤ w.toNat ∧ w.toNat ≤ 0x07) ∨ (0x81 ≤ w.toNat ∧ w.toNat ≤ 0x87))) ∧
  ((List.range 256).countP fun n => match decodeCmd (BitVec.ofNat 8 n) with | .ok _ => true | .error _ => false) = 10 ∧
  ((List.range 256).countP fun n => match decodeCmd (BitVec.ofNat 8 n) with | .ok _ => false | .error _ => true) = 246 ∧
  ∀ (w : Word8) (r : Reject) (s : State), decodeCmd w = .error r →
    perform (.cmd w) s = .next { s with rspStatus := .reject, rsp := 0x00 }

/-- 30_encoding.md R66: the decoder line by line, the encoder's values, and that each undoes the other, over the command
words and the event lines alike. -/
def Obligations.DecodeAndEncodeAgree : Prop :=
  (∀ w : Word8,
    if w.toNat / 8 % 8 ≠ 0 then ∃ r, decode (.cmd w) = .error r
    else if w.toNat / 64 = 0 then (if w.toNat % 8 = 0 then decode (.cmd w) = .ok .getst else ∃ r, decode (.cmd w) = .error r)
    else if w.toNat / 64 = 1 then decode (.cmd w) = .ok (.setst (BitVec.ofNat 3 (w.toNat % 8)))
    else if w.toNat / 64 = 2 then (if w.toNat % 8 = 0 then decode (.cmd w) = .ok .run else ∃ r, decode (.cmd w) = .error r)
    else ∃ r, decode (.cmd w) = .error r) ∧
  encode .getst = .cmd 0x00 ∧ encode .run = .cmd 0x80 ∧
  (∀ m : Mask, ∃ w : Word8, encode (.setst m) = .cmd w ∧ w.toNat = 0x40 + m.toNat) ∧
  ∀ (sig : Signal) (i : Instr), decode sig = .ok i ↔ encode i = sig

/-- The opcode table's rows overlap nowhere, and a signal selects an operation exactly when a row covers it. -/
def Obligations.OpcodeTableIsUnambiguous : Prop :=
  opcodeTable.Pairwise (fun r r' => ∀ sig, ¬ (r.covers sig = true ∧ r'.covers sig = true)) ∧
  ∀ sig, (∃ i, decode sig = .ok i) ↔ ∃ r ∈ opcodeTable, r.covers sig = true

/-! ### Host commands -/

/-- 40_host_commands.md R72: GETST answers the mask, zero-extended, from every state, and changes nothing else. -/
def Obligations.GetstRespondsTheMask : Prop :=
  encode .getst = .cmd 0x00 ∧
  (∀ s : State, ∃ t, exec .getst s = .next t ∧ t.rsp.toNat = s.mask.toNat ∧
    t = { s with rspStatus := .ok, rsp := s.mask.setWidth 8 }) ∧
  ∀ cfg : Config, ∃ t, exec .getst (State.resetOf cfg) = .next t ∧ t.rsp = 0

/-- 40_host_commands.md R73: SETST writes the three directions and the mask, from every state and for every mask, and
nothing else but its response. -/
def Obligations.SetstWritesDirectionsAndMask : Prop :=
  (∀ m : Mask, ∃ w : Word8, encode (.setst m) = .cmd w ∧ w.toNat = 0x40 + m.toNat) ∧
  ∀ (m : Mask) (s : State), ∃ t, exec (.setst m) s = .next t ∧
    (∀ c, t.dir.get c = if m.getLsbD c.idx then .rising else .falling) ∧
    t = { s with dir := t.dir, mask := m, rspStatus := .ok, rsp := 0x00 }

/-- 40_host_commands.md R74: a SETST of the mask already stored leaves every field of the state as it was, and no SETST
moves a duty by itself. The premise on `DIR` is clause 3 of the invariants of 10_state.md R34. -/
def Obligations.SetstIsIdempotent : Prop :=
  (∀ s : State, (∀ c, s.dir.get c = maskDir s.mask c) →
    ∃ t, exec (.setst s.mask) s = .next t ∧ { t with rspStatus := s.rspStatus, rsp := s.rsp } = s) ∧
  ∀ (m : Mask) (s : State), ∃ t, exec (.setst m) s = .next t ∧ t.duty = s.duty ∧
    exec (.setst m) t = .next t

/-- 40_host_commands.md R76: RUN sets `RUN` and nothing else but its response, again changes nothing, and is undone only by
RESET; before it T1CLK does nothing. -/
def Obligations.RunEnablesTheTickTimer : Prop :=
  encode .run = .cmd 0x80 ∧
  (∀ s : State, ∃ t, exec .run s = .next t ∧ t = { s with run := true, rspStatus := .ok, rsp := 0x00 } ∧
    exec .run t = .next t) ∧
  (∀ (i : Instr) (s t : State), exec i s = .next t → s.run = true → t.run = false → i = .reset) ∧
  ∀ s : State, s.run = false → exec .t1clk s = .next s

/-- 40_host_commands.md R75, 20_memory.md R51 (a): a GETST that follows a SETST of `m` with no SETST (and no RESET) between
answers `m`, whatever happened in the meantime. -/
def Obligations.GetstReturnsTheLastMaskSet : Prop :=
  ∀ (m : Mask) (ops : List Instr) (s t : State),
    (∀ i ∈ ops, i ≠ .reset ∧ ∀ m', i ≠ .setst m') →
    runOps (.setst m :: ops) s = .next t →
    ∃ u, exec .getst t = .next u ∧ u.rspStatus = .ok ∧ u.rsp = m.setWidth 8

/-- 40_host_commands.md R77, R79: whatever word the host presents, the block answers it in that step, and nothing of the
engine, the timers, the compare registers or the parameters is touched; the tick timer is never stopped by it. -/
def Obligations.HostReachesOnlyItsOwnFields : Prop :=
  ∀ (w : Word8) (s : State), ∃ t, perform (.cmd w) s = .next t ∧
    t = { s with dir := t.dir, mask := t.mask, run := t.run, rspStatus := t.rspStatus, rsp := t.rsp } ∧
    (s.run = true → t.run = true)

/-- 60_exceptions.md R112: the response status of a performed word is 0 exactly when the word is one of the ten defined
commands, and 1 otherwise. -/
def Obligations.ResponseStatusCodes : Prop :=
  ∀ (w : Word8) (s : State), ∃ t, perform (.cmd w) s = .next t ∧
    (t.rspStatus.bit = false ↔ w = 0x00 ∨ (0x40 ≤ w.toNat ∧ w.toNat ≤ 0x47) ∨ w = 0x80)

/-! ### Timers and the output -/

/-- 42_timer_events.md R98: one count of the PWM timer, from every state; at the wrap the buffers are latched. -/
def Obligations.PwmTimerCountsAndWraps : Prop :=
  encode .t0clk = .event .t0clkEn ∧
  ∀ s : State, ∃ t, exec .t0clk s = .next t ∧
    (s.cnt0 = s.cfg.params.top0 → t = { s with cnt0 := 0, ccv := s.ccvb }) ∧
    (s.cnt0 ≠ s.cfg.params.top0 → t = { s with cnt0 := s.cnt0 + 1 }) ∧
    (s.cnt0 ≤ s.cfg.params.top0 → t.cnt0 ≤ t.cfg.params.top0)

/-- 42_timer_events.md R100: the latch copies each of the three buffers and changes nothing else. -/
def Obligations.PeriodLatchCopiesTheBuffers : Prop :=
  ∀ s : State, (∀ c, s.periodLatch.ccv.get c = s.memRead c) ∧ s.periodLatch = { s with ccv := s.periodLatch.ccv }

/-- 42_timer_events.md R101: one count of the tick timer, from every state; held while disabled, and at the wrap the tick is
raised. -/
def Obligations.TickTimerCountsAndRaisesTheTick : Prop :=
  encode .t1clk = .event .t1clkEn ∧
  ∀ s : State, ∃ t, exec .t1clk s = .next t ∧
    (s.run = false → t = s) ∧
    (s.run = true → s.cnt1 = s.cfg.params.top1 → t = { s with cnt1 := 0, tickpend := true }) ∧
    (s.run = true → s.cnt1 ≠ s.cfg.params.top1 → t = { s with cnt1 := s.cnt1 + 1 })

/-- 42_timer_events.md R102: two overflows with no service between merge into one pending tick: what follows them is what
follows one overflow, and the SVC that serves them leaves no tick pending. -/
def Obligations.OverrunMergesTicks : Prop :=
  ∀ s : State, s.run = true → s.cnt1 ≤ s.cfg.params.top1 →
    repeatOp (exec .t1clk) (2 * (s.cfg.params.top1 + 1)) s = repeatOp (exec .t1clk) (s.cfg.params.top1 + 1) s ∧
    repeatOp (exec .t1clk) (s.cfg.params.top1 + 1) s = .next { s with tickpend := true } ∧
    ∀ t, exec .svc { s with tickpend := true } = .next t → t.tickpend = false

/-- 42_timer_events.md R103: the two timers are independent: their counts commute, from every state. -/
def Obligations.TimersCommute : Prop :=
  ∀ s : State, andThen (exec .t0clk s) (exec .t1clk) = andThen (exec .t1clk s) (exec .t0clk) ∧
    ∃ t, andThen (exec .t0clk s) (exec .t1clk) = .next t

/-- 30_encoding.md R70: the net effect of PERIOD from any `CNT0` in `0..TOP0` is one latch of the buffers. -/
def Obligations.PeriodLatchesExactlyOnce : Prop :=
  ∀ s : State, s.cnt0 ≤ s.cfg.params.top0 → period s = .next { s with ccv := s.ccvb }

/-- 30_encoding.md R69: TICK, where it is defined, is one per-tick update: the SVC of the state with the tick raised, and it
brings `CNT1` back to the value it had. The last clause is the MODEL'S CHOICE (notes/assumptions/17.md): R69 only says that
TICK is not defined where `RUN = 0` or `TICKPEND = 1`, and the model refuses it there by name. -/
def Obligations.TickIsOneUpdate : Prop :=
  (∀ s : State, s.run = true → s.tickpend = false → s.cnt1 ≤ s.cfg.params.top1 →
    tick s = exec .svc { s with tickpend := true }) ∧
  (∀ s : State, s.Inv → s.run = true → s.tickpend = false →
    ∃ t, tick s = .next t ∧ t.tickpend = false ∧ t.cnt1 = s.cnt1) ∧
  ∀ s : State, (s.run = false ∨ s.tickpend = true) → tick s = .refused .tickUndefined

/-- 42_timer_events.md R104: the compare value in effect changes only in the step in which the PWM timer wraps, and in RESET
(10_state.md R20), so a push never touches the period in progress. -/
def Obligations.CompareInEffectChangesOnlyAtTheBoundary : Prop :=
  ∀ (i : Instr) (s t : State), exec i s = .next t → t.ccv ≠ s.ccv →
    (i = .t0clk ∧ s.cnt0 = s.cfg.params.top0 ∧ t.cnt0 = 0) ∨ i = .reset

/-- 42_timer_events.md R105: `OUT[c]` is 1 while the counter is below the compare value, and so it is 1 at exactly `d` of the
`TOP0 + 1` counts of a period, namely the first `d`. -/
def Obligations.OutputIsActiveForDutyCounts : Prop :=
  (∀ (s : State) (c : Ch), s.out c = true ↔ s.cnt0 < s.ccv.get c) ∧
  ∀ (s : State) (c : Ch), s.ccv.get c ≤ s.cfg.params.top0 →
    ((List.range (s.cfg.params.top0 + 1)).countP fun n => State.out { s with cnt0 := n } c) = s.ccv.get c ∧
    ((List.range (s.cfg.params.top0 + 1)).countP fun n => !State.out { s with cnt0 := n } c) =
      s.cfg.params.top0 + 1 - s.ccv.get c

/-- 42_timer_events.md R106: a compare value of 0 is a dark LED, and in a state of the block every output is inactive at the
last count of a period, even at the largest duty. -/
def Obligations.OutputAtTheExtremes : Prop :=
  (∀ (s : State) (c : Ch), s.ccv.get c = 0 → s.out c = false) ∧
  ∀ s : State, s.Inv → s.cnt0 = s.cfg.params.top0 → s.outPort = 0

/-- 30_encoding.md R57: bit `c` of the port `out` is `OUT[c]`. -/
def Obligations.OutPortCarriesTheOutputs : Prop :=
  ∀ (s : State) (c : Ch), s.outPort.getLsbD c.idx = s.out c

/-- 70_reset_and_hazards.md R142: one more PWM period brings the waveform to the duty reached, on every channel. -/
def Obligations.OnePeriodShowsTheDuty : Prop :=
  ∀ s : State, s.Inv → ∃ t, period s = .next t ∧ t.duty = s.duty ∧ ∀ c, t.ccv.get c = s.duty.get c

/-! ### The stepping engine -/

/-- 00_scope.md R8: the duty bounds, and that none exceeds `TOP0`. -/
def Obligations.MaxDutyIsTheFloorQuotient : Prop :=
  ∀ cfg : Config, maxDuty cfg .c1 = cfg.params.top0 ∧
    (∀ q, maxDuty cfg .c0 = q ↔ q * cfg.params.div0 ≤ cfg.params.top0 ∧ cfg.params.top0 < (q + 1) * cfg.params.div0) ∧
    (∀ q, maxDuty cfg .c2 = q ↔ q * cfg.params.div2 ≤ cfg.params.top0 ∧ cfg.params.top0 < (q + 1) * cfg.params.div2) ∧
    ∀ c, maxDuty cfg c ≤ cfg.params.top0

/-- 41_fade_engine.md R82: the gates, and that an SVC lets a channel step exactly where its gate is open in the state before
the SVC, with the slowdown counters not yet advanced. -/
def Obligations.GateOpensAtTheDivisor : Prop :=
  (∀ s : State, (s.gate .c0 = true ↔ s.sdcnt0 = s.cfg.params.div0) ∧ s.gate .c1 = true ∧
    (s.gate .c2 = true ↔ s.sdcnt2 = s.cfg.params.div2)) ∧
  ∀ (s t : State) (c : Ch), exec .svc s = .next t →
    (s.gate c = false → t.duty.get c = s.duty.get c ∧ t.ccvb.get c = s.ccvb.get c) ∧
    (s.gate c = true → ∃ u, s.stepChannel c = .ok u ∧ t.duty.get c = u.duty.get c ∧ t.ccvb.get c = u.ccvb.get c)

/-- 41_fade_engine.md R83: both slowdown counters advance on every SVC, whether or not a gate was open or a duty moved. -/
def Obligations.SlowdownCountersAdvanceOnEverySvc : Prop :=
  (∀ s : State, s.tickpend = true → (∀ c, s.duty.get c ≤ maxDuty s.cfg c) → ∃ t, exec .svc s = .next t) ∧
  ∀ s t : State, exec .svc s = .next t →
    t.sdcnt0 = (if s.sdcnt0 = s.cfg.params.div0 then 1 else s.sdcnt0 + 1) ∧
    t.sdcnt2 = (if s.sdcnt2 = s.cfg.params.div2 then 1 else s.sdcnt2 + 1)

/-- 20_memory.md R43: within its precondition `SetDuty` writes one word of the buffer and nothing else; outside it is a
fault, not a value. -/
def Obligations.SetDutyWritesOneBufferWord : Prop :=
  ∀ (s : State) (c : Ch) (v : Nat),
    (v ≤ s.cfg.params.top0 → ∃ t, s.setDuty c v = .ok t ∧ t.memRead c = v ∧
      (∀ d, d ≠ c → t.memRead d = s.memRead d) ∧ t = { s with ccvb := t.ccvb }) ∧
    (s.cfg.params.top0 < v → s.setDuty c v = .error .setDutyRange)

/-- 41_fade_engine.md R81, R86: one step of one channel: a unit up with its push, a unit down with its push, or at the bound
nothing at all. The premise is the duty bound of 10_state.md R34 clause 1. -/
def Obligations.StepMovesOneUnitOrNothing : Prop :=
  ∀ (s : State) (c : Ch), s.duty.get c ≤ maxDuty s.cfg c → ∃ t, s.stepChannel c = .ok t ∧
    (∀ d, d ≠ c → t.duty.get d = s.duty.get d ∧ t.ccvb.get d = s.ccvb.get d) ∧
    t = { s with duty := t.duty, ccvb := t.ccvb } ∧
    if s.dir.get c = .rising ∧ s.duty.get c < maxDuty s.cfg c then
      t.duty.get c = s.duty.get c + 1 ∧ t.ccvb.get c = s.duty.get c + 1
    else if s.dir.get c = .falling ∧ 0 < s.duty.get c then
      t.duty.get c = s.duty.get c - 1 ∧ t.ccvb.get c = s.duty.get c - 1
    else t = s

/-- 41_fade_engine.md R80: SVC, wherever a tick is pending and the duties keep their bounds (10_state.md R34 clause 1), with
every field it writes and its frame; where no tick is pending there is no SVC step; and no command
word is an SVC. -/
def Obligations.SvcIsThePerTickUpdate : Prop :=
  (∀ s : State, s.tickpend = true → (∀ c, s.duty.get c ≤ maxDuty s.cfg c) → ∃ t, exec .svc s = .next t ∧
    (∀ c,
      if (c = .c1 ∨ s.sdcnt c = divOf s.cfg c) ∧ s.dir.get c = .rising ∧ s.duty.get c < maxDuty s.cfg c then
        t.duty.get c = s.duty.get c + 1 ∧ t.ccvb.get c = s.duty.get c + 1
      else if (c = .c1 ∨ s.sdcnt c = divOf s.cfg c) ∧ s.dir.get c = .falling ∧ 0 < s.duty.get c then
        t.duty.get c = s.duty.get c - 1 ∧ t.ccvb.get c = s.duty.get c - 1
      else t.duty.get c = s.duty.get c ∧ t.ccvb.get c = s.ccvb.get c) ∧
    t.sdcnt0 = (if s.sdcnt0 = s.cfg.params.div0 then 1 else s.sdcnt0 + 1) ∧
    t.sdcnt2 = (if s.sdcnt2 = s.cfg.params.div2 then 1 else s.sdcnt2 + 1) ∧
    t.tickpend = false ∧
    t = { s with duty := t.duty, ccvb := t.ccvb, sdcnt0 := t.sdcnt0, sdcnt2 := t.sdcnt2, tickpend := t.tickpend }) ∧
  (∀ s t : State, s.tickpend = false → exec .svc s ≠ .next t) ∧
  (∀ w : Word8, decodeCmd w ≠ .ok .svc) ∧ decode (.event .tickpend) = .ok .svc

/-- 41_fade_engine.md R95: an SVC moves no duty by more than one unit, and no other operation but RESET moves one at all. -/
def Obligations.DutyMovesByAtMostOne : Prop :=
  ∀ (i : Instr) (s t : State) (c : Ch), exec i s = .next t → i ≠ .reset →
    (i = .svc → t.duty.get c ≤ s.duty.get c + 1 ∧ s.duty.get c ≤ t.duty.get c + 1) ∧
    (i ≠ .svc → t.duty.get c = s.duty.get c)

/-- 41_fade_engine.md R88: a push happens exactly when the duty changed, and carries the new value, which differs from the
old by exactly one. -/
def Obligations.PushExactlyWhenTheDutyChanged : Prop :=
  ∀ (s t : State) (c : Ch), exec .svc s = .next t →
    (t.duty.get c = s.duty.get c ∧ t.ccvb.get c = s.ccvb.get c) ∨
    (t.ccvb.get c = t.duty.get c ∧ (t.duty.get c = s.duty.get c + 1 ∨ s.duty.get c = t.duty.get c + 1))

/-- 41_fade_engine.md R85: the channels are independent: the order in which they are evaluated cannot be seen, and what
becomes of one channel depends on that channel's own fields and the parameters alone. -/
def Obligations.ChannelsAreIndependent : Prop :=
  (∀ s : State, ((s.gatedStep .c2).bind fun s2 => (s2.gatedStep .c1).bind fun s1 => s1.gatedStep .c0) = s.stepAll) ∧
  ∀ (s s' t t' : State) (c : Ch), exec .svc s = .next t → exec .svc s' = .next t' →
    s.cfg = s'.cfg → s.duty.get c = s'.duty.get c → s.dir.get c = s'.dir.get c → s.sdcnt c = s'.sdcnt c →
    s.ccvb.get c = s'.ccvb.get c →
    t.duty.get c = t'.duty.get c ∧ t.ccvb.get c = t'.ccvb.get c ∧ t.sdcnt c = t'.sdcnt c

/-- 41_fade_engine.md R91: the gate schedule since RESET, with any operations between the SVCs: after `k` SVCs the counter is
`((SDINIT - 1 + k) mod DIV) + 1`, so the gate of the next SVC is open exactly when `SDINIT + k` is a multiple of `DIV`; and
in any `DIV` consecutive SVCs after that it is open exactly once. -/
def Obligations.GateScheduleSinceReset : Prop :=
  ∀ (s : State) (ops : List Instr) (t : State), .reset ∉ ops → runOps (.reset :: ops) s = .next t →
    t.sdcnt0 = (s.cfg.params.sdinit0 - 1 + ops.count .svc) % s.cfg.params.div0 + 1 ∧
    t.sdcnt2 = (s.cfg.params.sdinit2 - 1 + ops.count .svc) % s.cfg.params.div2 + 1 ∧
    (t.gate .c0 = true ↔ (s.cfg.params.sdinit0 + ops.count .svc) % s.cfg.params.div0 = 0) ∧
    (t.gate .c2 = true ↔ (s.cfg.params.sdinit2 + ops.count .svc) % s.cfg.params.div2 = 0) ∧
    ∀ (c : Ch) (more : List Instr) (u : State), .reset ∉ more → runOps more t = .next u →
      more.count .svc = divOf s.cfg c → openGates c more t = 1

/-- 41_fade_engine.md R92: over any run with `N` SVCs and no RESET the gate is open `N / DIV` times when `DIV` divides `N`,
and `floor(N / DIV)` or one more times otherwise, whatever the phase; and a channel that is never at its target bound in the
run moves exactly that many units. The premises on the counters are 10_state.md R34 clause 2. -/
def Obligations.RateOfTheGate : Prop :=
  (∀ (c : Ch) (ops : List Instr) (s t : State), 1 ≤ s.sdcnt c → s.sdcnt c ≤ divOf s.cfg c → .reset ∉ ops →
    runOps ops s = .next t →
    (divOf s.cfg c ∣ ops.count .svc → openGates c ops s = ops.count .svc / divOf s.cfg c) ∧
    (openGates c ops s = ops.count .svc / divOf s.cfg c ∨ openGates c ops s = ops.count .svc / divOf s.cfg c + 1)) ∧
  ∀ (c : Ch) (ops : List Instr) (s t : State), (∀ i ∈ ops, i ≠ .reset ∧ ∀ m, i ≠ .setst m) → runOps ops s = .next t →
    (s.dir.get c = .rising → s.duty.get c + openGates c ops s ≤ maxDuty s.cfg c →
      t.duty.get c = s.duty.get c + openGates c ops s) ∧
    (s.dir.get c = .falling → openGates c ops s ≤ s.duty.get c →
      t.duty.get c + openGates c ops s = s.duty.get c)

/-- The whole fade in one formula (41_fade_engine.md R81, R91): over any run in which no direction is set and nothing is
reset, a channel moves toward its bound by the number of open gates, `(N + SDCNT - 1) / DIV` for `N` SVCs, and stops there. -/
def Obligations.FadeInClosedForm : Prop :=
  ∀ (c : Ch) (ops : List Instr) (s t : State), s.Inv → (∀ i ∈ ops, i ≠ .reset ∧ ∀ m, i ≠ .setst m) →
    runOps ops s = .next t →
    (s.dir.get c = .rising →
      t.duty.get c = min (maxDuty s.cfg c) (s.duty.get c + (ops.count .svc + s.sdcnt c - 1) / divOf s.cfg c)) ∧
    (s.dir.get c = .falling →
      t.duty.get c = s.duty.get c - (ops.count .svc + s.sdcnt c - 1) / divOf s.cfg c)

/-- 41_fade_engine.md R96: if the direction of a channel is held over at least `MAXDUTY * DIV` SVCs, whatever else happens
in between, then the duty is at the bound of that direction. It holds of every longer run too, so the duty stays there. -/
def Obligations.FadeConverges : Prop :=
  ∀ (c : Ch) (ops : List Instr) (s t : State), s.Inv → .reset ∉ ops →
    (∀ m, .setst m ∈ ops → maskDir m c = s.dir.get c) →
    runOps ops s = .next t → maxDuty s.cfg c * divOf s.cfg c ≤ ops.count .svc →
    t.duty.get c = match s.dir.get c with
      | .rising => maxDuty s.cfg c
      | .falling => 0

/-- 95_test_vectors.md V-P3, with the ticks performed: from any state of the block with the tick timer enabled and no tick
pending, `n` ticks run to their end for every `n`, and from `MAXDUTY * DIV` ticks on the duty is at its bound. -/
def Obligations.TicksReachTheBound : Prop :=
  ∀ (c : Ch) (s : State) (n : Nat), s.Inv → s.run = true → s.tickpend = false →
    ∃ t, repeatOp tick n s = .next t ∧ (maxDuty s.cfg c * divOf s.cfg c ≤ n →
      t.duty.get c = match s.dir.get c with
        | .rising => maxDuty s.cfg c
        | .falling => 0)

/-- 41_fade_engine.md R97: a full ramp up takes between `(MAXDUTY - 1) * DIV + 1` and `MAXDUTY * DIV` SVCs, which is at most
`TOP0`. -/
def Obligations.FullRampLength : Prop :=
  ∀ (c : Ch) (ops : List Instr) (s t : State), s.Inv → s.dir.get c = .rising → s.duty.get c = 0 → 0 < maxDuty s.cfg c →
    (∀ i ∈ ops, i ≠ .reset ∧ ∀ m, i ≠ .setst m) → runOps ops s = .next t →
    (t.duty.get c = maxDuty s.cfg c → (maxDuty s.cfg c - 1) * divOf s.cfg c + 1 ≤ ops.count .svc) ∧
    (maxDuty s.cfg c * divOf s.cfg c ≤ ops.count .svc → t.duty.get c = maxDuty s.cfg c) ∧
    maxDuty s.cfg c * divOf s.cfg c ≤ s.cfg.params.top0

/-! ### Reset and boot -/

/-- 10_state.md R33: the reset values, in every configuration and so in the one of `State.reset`, and that the PWM timer runs
from the first step after reset. -/
def Obligations.ResetStateHoldsTheResetValues : Prop :=
  (∀ (cfg : Config) (c : Ch),
    (State.resetOf cfg).duty.get c = 0 ∧ (State.resetOf cfg).dir.get c = .falling ∧
    (State.resetOf cfg).ccvb.get c = 0 ∧ (State.resetOf cfg).ccv.get c = 0 ∧ (State.resetOf cfg).mask = 0 ∧
    (State.resetOf cfg).sdcnt0 = cfg.params.sdinit0 ∧ (State.resetOf cfg).sdcnt2 = cfg.params.sdinit2 ∧
    (State.resetOf cfg).run = false ∧ (State.resetOf cfg).tickpend = false ∧
    (State.resetOf cfg).cnt0 = 0 ∧ (State.resetOf cfg).cnt1 = 0) ∧
  (∀ cfg : Config, ∃ t, exec .t0clk (State.resetOf cfg) = .next t ∧ (0 < cfg.params.top0 → t.cnt0 = 1)) ∧
  ∃ cfg, State.reset = State.resetOf cfg

/-- 70_reset_and_hazards.md R132: RESET, from every state, puts every field at its reset value, and where `rst = 1` it is
what the step does, whatever else is due with it. -/
def Obligations.ResetRestoresTheResetValues : Prop :=
  encode .reset = .event .rst ∧
  (∀ s : State, s.ports.rst = true → step s = exec .reset { s with inputs := s.inputs.tail }) ∧
  ∀ s : State, ∃ t, exec .reset s = .next t ∧
    (∀ c, t.duty.get c = 0 ∧ t.dir.get c = .falling ∧ t.ccvb.get c = 0 ∧ t.ccv.get c = 0) ∧
    t.sdcnt0 = s.cfg.params.sdinit0 ∧ t.sdcnt2 = s.cfg.params.sdinit2 ∧ t.mask = 0 ∧ t.run = false ∧
    t.tickpend = false ∧ t.cnt0 = 0 ∧ t.cnt1 = 0 ∧
    ∃ u, exec .getst t = .next u ∧ u.rsp = 0x00

/-- The MODEL'S CHOICE (notes/assumptions/2.md and 3.md): RESET leaves the parameters and the input lines of the cycles to
come, and the response ports as they are after power-on. -/
def Obligations.ResetAndTheModelsOwnFields : Prop :=
  ∀ s : State, ∃ t, exec .reset s = .next t ∧ t.cfg = s.cfg ∧ t.inputs = s.inputs ∧ t.rspStatus = .ok ∧ t.rsp = 0x00

/-- 70_reset_and_hazards.md R134: after RESET and until RUN, whatever else happens, the tick timer is disabled, no tick is
pending, SVC is not enabled and every duty is 0. -/
def Obligations.NothingFadesBeforeRun : Prop :=
  ∀ (ops : List Instr) (s t : State), .run ∉ ops → runOps (.reset :: ops) s = .next t →
    t.run = false ∧ t.tickpend = false ∧ (∀ u, exec .svc t ≠ .next u) ∧ ∀ c, t.duty.get c = 0

/-- 00_scope.md R11: a configuration is refused exactly when it is not well formed. -/
def Obligations.IllFormedConfigurationsAreRefused : Prop :=
  ∀ p : Params,
    (State.powerOn p = .refused .illFormedConfig ↔
      ¬ (1 ≤ p.div0 ∧ 1 ≤ p.div2 ∧ (1 ≤ p.sdinit0 ∧ p.sdinit0 ≤ p.div0) ∧ (1 ≤ p.sdinit2 ∧ p.sdinit2 ≤ p.div2) ∧
        p.top0 ≤ 2 ^ p.w - 1 ∧ p.top1 ≤ 2 ^ p.w - 1)) ∧
    ∀ h : p.wf, State.powerOn p = .next (State.resetOf ⟨p, h⟩)

/-! ### Invariants and frames over all operations -/

/-- 10_state.md R34: the invariants hold right after reset, in every configuration. -/
def Obligations.InvariantsHoldAfterReset : Prop :=
  (∀ cfg : Config, (State.resetOf cfg).Inv) ∧ State.reset.Inv

/-- 10_state.md R34: every step from a state with the invariants leads to a state with the invariants, whatever the inputs. -/
def Obligations.StepKeepsTheInvariants : Prop :=
  ∀ s t : State, s.Inv → step s = .next t → t.Inv

/-- 10_state.md R34: in every state reachable from reset in a well-formed configuration, under any inputs, the invariants
hold. -/
def Obligations.ReachableStatesHaveTheInvariants : Prop :=
  ∀ (cfg : Config) (inputs : List Cycle) (n : Nat) (t : State),
    repeatOp step n { State.resetOf cfg with inputs := inputs } = .next t → t.Inv

/-- 20_memory.md R53, 60_exceptions.md R110, 70_reset_and_hazards.md R145: from a state with the invariants every step goes on: no fault and no refusal,
whatever the inputs. In particular every push meets the precondition of `SetDuty`, and a reserved word stops nothing. -/
def Obligations.NoStepStops : Prop :=
  ∀ s : State, s.Inv → s.StepSafe

/-- 00_scope.md R4, 41_fade_engine.md R89: in a state with the invariants every `W`-bit register holds a number of `W` bits, and the next count of
neither timer leaves that range. -/
def Obligations.RegistersFitTheirWidth : Prop :=
  ∀ s : State, s.Inv → (∀ c, s.duty.get c < 2 ^ s.cfg.params.w ∧ s.ccvb.get c < 2 ^ s.cfg.params.w ∧
      s.ccv.get c < 2 ^ s.cfg.params.w) ∧
    s.cnt0 < 2 ^ s.cfg.params.w ∧ s.cnt1 < 2 ^ s.cfg.params.w ∧
    s.countPwm.cnt0 < 2 ^ s.cfg.params.w ∧ s.countTick.cnt1 < 2 ^ s.cfg.params.w

/-- The write column of the table of 10_state.md R32, field by field: an operation changes only the fields listed for it. -/
def Obligations.EachFieldHasItsWriters : Prop :=
  ∀ (i : Instr) (s t : State), exec i s = .next t → i ≠ .reset →
    (t.duty ≠ s.duty → i = .svc) ∧
    (t.sdcnt0 ≠ s.sdcnt0 → i = .svc) ∧
    (t.sdcnt2 ≠ s.sdcnt2 → i = .svc) ∧
    (t.ccvb ≠ s.ccvb → i = .svc) ∧
    (t.dir ≠ s.dir → ∃ m, i = .setst m) ∧
    (t.mask ≠ s.mask → ∃ m, i = .setst m) ∧
    (t.ccv ≠ s.ccv → i = .t0clk) ∧
    (t.cnt0 ≠ s.cnt0 → i = .t0clk) ∧
    (t.cnt1 ≠ s.cnt1 → i = .t1clk) ∧
    (t.run ≠ s.run → i = .run ∧ t.run = true) ∧
    (t.tickpend ≠ s.tickpend → i = .t1clk ∧ t.tickpend = true ∨ i = .svc ∧ t.tickpend = false)

/-- 10_state.md R29, 70_reset_and_hazards.md R136: no step changes the parameters. -/
def Obligations.ParametersNeverChange : Prop :=
  ∀ s t : State, step s = .next t → t.cfg = s.cfg

/-! ### Steps, cycles and interleavings -/

/-- 00_scope.md R3: where an operation is due, the step is that operation's meaning; 60_exceptions.md R110: a reserved word
is answered with `CmdReject`. The rest is the MODEL'S CHOICE (notes/assumptions/3.md), of which R3 and R110 say nothing: that
the input lines stand in the state cycle by cycle, that a step takes the operation out of the present cycle (and so changes
the input lines alone), and that a step in which nothing is due ends the cycle. -/
def Obligations.StepPerformsTheDueOperation : Prop :=
  (∀ (s : State) (sig : Signal) (i : Instr), s.due = some sig → decode sig = .ok i →
    step s = exec i (s.consume sig)) ∧
  (∀ (s : State) (sig : Signal) (r : Reject), s.due = some sig → decode sig = .error r →
    step s = .next { s.consume sig with rspStatus := .reject, rsp := 0x00 }) ∧
  (∀ s : State, s.due = none → step s = .next { s with inputs := s.inputs.tail }) ∧
  ∀ (s : State) (sig : Signal), { s.consume sig with inputs := s.inputs } = s

/-- A word that decodes runs when it is presented: the very next step is its operation, in the state in which the rest of
that cycle is still to come. How a word is put into the inputs is the model's (notes/assumptions/3.md and 5.md). -/
def Obligations.PresentedWordRunsNext : Prop :=
  ∀ (s : State) (nbits w : Nat) (i : Instr), decodeTableWord nbits w = some i →
    step (s.withFetchWord nbits w) =
      exec i { s with inputs := { Cycle.command (BitVec.ofNat 8 (w % 2 ^ nbits)) with cmdValid := false } :: s.inputs }

/-- 30_encoding.md R65: the signal of any operation, presented, is performed by the very next step: the command words on
`cmd`, the events on their lines, and SVC by the state bit `TICKPEND`. How a signal is put into the inputs is the model's
(notes/assumptions/3.md and 5.md). -/
def Obligations.PresentedSignalRunsNext : Prop :=
  ∀ (s : State) (i : Instr), ∃ rest,
    (rest = s.inputs ∨ ∃ p : Cycle, rest = p :: s.inputs ∧ p.rst = false ∧ p.cmdValid = false ∧ p.t0clkEn = false ∧
      p.t1clkEn = false) ∧
    step (s.presentSignal (encode i)) = exec i { s with inputs := rest, tickpend := s.tickpend || i = .svc }

/-- 60_exceptions.md R117: what is due in one clock cycle is performed in the fixed order RESET (which drops the rest), host
command, T0CLK, T1CLK, SVC, each seeing the state the one before left. The rest is the MODEL'S CHOICE
(notes/assumptions/3.md), of which R117 says nothing: that the lines of a cycle stand in the state, that each operation is
one step and the cycle ends with the SVC or with one step in which nothing is due, which gives the counts of steps, and the
bit `engineEn`, whose premise says that the engine has its turn in the cycle, as in a clocked implementation. -/
def Obligations.CycleFollowsTheFixedOrder : Prop :=
  ∀ (s : State) (p : Cycle) (rest : List Cycle), s.inputs = p :: rest → p.engineEn = true →
    (p.rst = true → repeatOp step 1 s = exec .reset { s with inputs := rest }) ∧
    (p.rst = false →
      repeatOp step (p.cmdValid.toNat + p.t0clkEn.toNat + p.t1clkEn.toNat + 1) s =
        andThen (if p.cmdValid then perform (.cmd p.cmd) { s with inputs := rest } else .next { s with inputs := rest })
          fun s1 =>
        andThen (if p.t0clkEn then exec .t0clk s1 else .next s1) fun s2 =>
        andThen (if p.t1clkEn then exec .t1clk s2 else .next s2) fun s3 =>
        if s3.tickpend then exec .svc s3 else .next s3)

/-- 60_exceptions.md R116: when the engine has its turn in every cycle, a pending tick is always served before the tick
timer's next count (and before anything else): no T1CLK ever sees `TICKPEND = 1`, so no overrun occurs. -/
def Obligations.ClockedRunsLoseNoTick : Prop :=
  (∀ s t : State, s.Clocked → s.TickFirst → step s = .next t → t.Clocked ∧ t.TickFirst) ∧
  (∀ s : State, s.Clocked → s.TickFirst → s.tickpend = true → step s = exec .svc s.endCycle) ∧
  (∀ s : State, s.TickFirst → s.due = some (.event .t1clkEn) → s.tickpend = false) ∧
  ∀ (cfg : Config) (inputs : List Cycle), State.TickFirst { State.resetOf cfg with inputs := inputs }

/-- 00_scope.md R3: every interleaving of enabled operations is a run: for any sequence of operations that can be performed
one after another there are inputs under which the signals performed along the run are exactly the signals of those
operations, in their order, and the run ends where the operations end. (A signal selects one operation and an operation has
one signal: `Obligations.DecodeAndEncodeAgree`. That the inputs stand in the state is notes/assumptions/3.md.) -/
def Obligations.EveryInterleavingIsARun : Prop :=
  ∀ (ops : List Instr) (s t : State), runOps ops s = .next t →
    ∃ (inputs : List Cycle) (n : Nat),
      stepSignals n { s with inputs := inputs } = ops.map encode ∧
      repeatOp step n { s with inputs := inputs } = .next { t with inputs := [] }

/-- 00_scope.md R3, the other way round: every run of the machine is an interleaving of atomic operations: it ends where the
signals performed along it, performed one after another and with nothing in between, end. (The input lines are the
environment's, notes/assumptions/3.md, and are left out of the comparison.) -/
def Obligations.EveryRunIsAnInterleaving : Prop :=
  ∀ (n : Nat) (s t : State), repeatOp step n s = .next t →
    performAll (stepSignals n s) { s with inputs := [] } = .next { t with inputs := [] }

/-! ### Host-level programs -/

/-- 30_encoding.md R67: a host-level program is translated word for word, and a RUN precedes the first TICK. That it does so
also where the ticks are `TICK*0`, which performs no TICK, is the MODEL'S CHOICE (notes/assumptions/19.md). -/
def Obligations.HostProgramsTranslateWordForWord : Prop :=
  (∀ m, hostCallItem (.setLedsPwm m) = (.op (.setst m), 1)) ∧
  hostCallItem .getLedsPwm = (.op .getst, 1) ∧
  (∀ n, hostCallItem (.afterTicks n) = (.tick, n)) ∧
  ∀ p : List HostCall,
    (programTrace p).filter (fun x => x ≠ (.op .run, 1)) = p.map hostCallItem ∧
    ∀ (before : Trace) (n : Nat) (rest : Trace),
      programTrace p = before ++ (.tick, n) :: rest → (.op .run, 1) ∈ before

/-- Every host-level program runs to its end (30_encoding.md R67, R69; 70_reset_and_hazards.md R134): its trace from every
state with the invariants in which no tick is pending, running or not, and its trace with the boot in front from every state
whatever; and a `get_leds_pwm()` after it answers the last mask set (40_host_commands.md R75). -/
def Obligations.HostProgramsRunToTheirEnd : Prop :=
  (∀ (p : List HostCall) (s : State), s.Inv → s.tickpend = false →
    ∃ t u, performTrace (programTrace p) s = .next t ∧ t.Inv ∧ t.tickpend = false ∧
      exec .getst t = .next u ∧ u.rsp = (maskAfter p s.mask).setWidth 8) ∧
  ∀ (p : List HostCall) (s : State),
    ∃ t u, performTrace (bootTrace p) s = .next t ∧ t.Inv ∧ t.tickpend = false ∧
      exec .getst t = .next u ∧ u.rsp = (maskAfter p 0).setWidth 8
end

