-- ==== Sys2Proof/Laws/State.lean ====
section
/-! SUPPORT. The small lemmas of the state: the triples, and what each update leaves in each field. -/

namespace Sys2Proof

namespace Tri

variable {α : Type}

theorem ext_get {t u : Tri α} (h : ∀ c, t.get c = u.get c) : t = u := by
  cases t; cases u
  have h0 := h .c0; have h1 := h .c1; have h2 := h .c2
  simp only [get] at h0 h1 h2
  subst h0 h1 h2; rfl

@[simp] theorem get_all (a : α) (c : Ch) : (all a).get c = a := by cases c <;> rfl
@[simp] theorem get_ofFn (f : Ch → α) (c : Ch) : (ofFn f).get c = f c := by cases c <;> rfl
@[simp] theorem get_set_self (t : Tri α) (c : Ch) (a : α) : (t.set c a).get c = a := by cases c <;> rfl

theorem get_set_other (t : Tri α) {c d : Ch} (a : α) (h : d ≠ c) : (t.set c a).get d = t.get d := by
  cases c <;> cases d <;> first | rfl | exact absurd rfl h

theorem get_set (t : Tri α) (c d : Ch) (a : α) : (t.set c a).get d = if d = c then a else t.get d := by
  by_cases h : d = c
  · subst h; simp
  · rw [get_set_other t a h, if_neg h]

@[simp] theorem ofFn_get (t : Tri α) : ofFn t.get = t := rfl

end Tri

namespace Machine

@[simp] theorem maskDirs_get (m : Mask) (c : Ch) : (maskDirs m).get c = maskDir m c := by simp [maskDirs]

@[simp] theorem State.setTargets_cfg (s : State) (m : Mask) : (s.setTargets m).cfg = s.cfg := rfl
@[simp] theorem State.setTargets_duty (s : State) (m : Mask) : (s.setTargets m).duty = s.duty := rfl
@[simp] theorem State.setTargets_dir (s : State) (m : Mask) : (s.setTargets m).dir = maskDirs m := rfl
@[simp] theorem State.setTargets_sdcnt0 (s : State) (m : Mask) : (s.setTargets m).sdcnt0 = s.sdcnt0 := rfl
@[simp] theorem State.setTargets_sdcnt2 (s : State) (m : Mask) : (s.setTargets m).sdcnt2 = s.sdcnt2 := rfl
@[simp] theorem State.setTargets_mask (s : State) (m : Mask) : (s.setTargets m).mask = m := rfl
@[simp] theorem State.setTargets_ccvb (s : State) (m : Mask) : (s.setTargets m).ccvb = s.ccvb := rfl
@[simp] theorem State.setTargets_ccv (s : State) (m : Mask) : (s.setTargets m).ccv = s.ccv := rfl
@[simp] theorem State.setTargets_tickpend (s : State) (m : Mask) : (s.setTargets m).tickpend = s.tickpend := rfl
@[simp] theorem State.setTargets_run (s : State) (m : Mask) : (s.setTargets m).run = s.run := rfl
@[simp] theorem State.setTargets_cnt0 (s : State) (m : Mask) : (s.setTargets m).cnt0 = s.cnt0 := rfl
@[simp] theorem State.setTargets_cnt1 (s : State) (m : Mask) : (s.setTargets m).cnt1 = s.cnt1 := rfl
@[simp] theorem State.setTargets_rspStatus (s : State) (m : Mask) : (s.setTargets m).rspStatus = s.rspStatus := rfl
@[simp] theorem State.setTargets_rsp (s : State) (m : Mask) : (s.setTargets m).rsp = s.rsp := rfl
@[simp] theorem State.setTargets_inputs (s : State) (m : Mask) : (s.setTargets m).inputs = s.inputs := rfl

@[simp] theorem State.raiseTick_cfg (s : State) : (s.raiseTick).cfg = s.cfg := rfl
@[simp] theorem State.raiseTick_duty (s : State) : (s.raiseTick).duty = s.duty := rfl
@[simp] theorem State.raiseTick_dir (s : State) : (s.raiseTick).dir = s.dir := rfl
@[simp] theorem State.raiseTick_sdcnt0 (s : State) : (s.raiseTick).sdcnt0 = s.sdcnt0 := rfl
@[simp] theorem State.raiseTick_sdcnt2 (s : State) : (s.raiseTick).sdcnt2 = s.sdcnt2 := rfl
@[simp] theorem State.raiseTick_mask (s : State) : (s.raiseTick).mask = s.mask := rfl
@[simp] theorem State.raiseTick_ccvb (s : State) : (s.raiseTick).ccvb = s.ccvb := rfl
@[simp] theorem State.raiseTick_ccv (s : State) : (s.raiseTick).ccv = s.ccv := rfl
@[simp] theorem State.raiseTick_tickpend (s : State) : (s.raiseTick).tickpend = true := rfl
@[simp] theorem State.raiseTick_run (s : State) : (s.raiseTick).run = s.run := rfl
@[simp] theorem State.raiseTick_cnt0 (s : State) : (s.raiseTick).cnt0 = s.cnt0 := rfl
@[simp] theorem State.raiseTick_cnt1 (s : State) : (s.raiseTick).cnt1 = s.cnt1 := rfl
@[simp] theorem State.raiseTick_rspStatus (s : State) : (s.raiseTick).rspStatus = s.rspStatus := rfl
@[simp] theorem State.raiseTick_rsp (s : State) : (s.raiseTick).rsp = s.rsp := rfl
@[simp] theorem State.raiseTick_inputs (s : State) : (s.raiseTick).inputs = s.inputs := rfl

@[simp] theorem State.clearTick_cfg (s : State) : (s.clearTick).cfg = s.cfg := rfl
@[simp] theorem State.clearTick_duty (s : State) : (s.clearTick).duty = s.duty := rfl
@[simp] theorem State.clearTick_dir (s : State) : (s.clearTick).dir = s.dir := rfl
@[simp] theorem State.clearTick_sdcnt0 (s : State) : (s.clearTick).sdcnt0 = s.sdcnt0 := rfl
@[simp] theorem State.clearTick_sdcnt2 (s : State) : (s.clearTick).sdcnt2 = s.sdcnt2 := rfl
@[simp] theorem State.clearTick_mask (s : State) : (s.clearTick).mask = s.mask := rfl
@[simp] theorem State.clearTick_ccvb (s : State) : (s.clearTick).ccvb = s.ccvb := rfl
@[simp] theorem State.clearTick_ccv (s : State) : (s.clearTick).ccv = s.ccv := rfl
@[simp] theorem State.clearTick_tickpend (s : State) : (s.clearTick).tickpend = false := rfl
@[simp] theorem State.clearTick_run (s : State) : (s.clearTick).run = s.run := rfl
@[simp] theorem State.clearTick_cnt0 (s : State) : (s.clearTick).cnt0 = s.cnt0 := rfl
@[simp] theorem State.clearTick_cnt1 (s : State) : (s.clearTick).cnt1 = s.cnt1 := rfl
@[simp] theorem State.clearTick_rspStatus (s : State) : (s.clearTick).rspStatus = s.rspStatus := rfl
@[simp] theorem State.clearTick_rsp (s : State) : (s.clearTick).rsp = s.rsp := rfl
@[simp] theorem State.clearTick_inputs (s : State) : (s.clearTick).inputs = s.inputs := rfl

@[simp] theorem State.enableTicks_cfg (s : State) : (s.enableTicks).cfg = s.cfg := rfl
@[simp] theorem State.enableTicks_duty (s : State) : (s.enableTicks).duty = s.duty := rfl
@[simp] theorem State.enableTicks_dir (s : State) : (s.enableTicks).dir = s.dir := rfl
@[simp] theorem State.enableTicks_sdcnt0 (s : State) : (s.enableTicks).sdcnt0 = s.sdcnt0 := rfl
@[simp] theorem State.enableTicks_sdcnt2 (s : State) : (s.enableTicks).sdcnt2 = s.sdcnt2 := rfl
@[simp] theorem State.enableTicks_mask (s : State) : (s.enableTicks).mask = s.mask := rfl
@[simp] theorem State.enableTicks_ccvb (s : State) : (s.enableTicks).ccvb = s.ccvb := rfl
@[simp] theorem State.enableTicks_ccv (s : State) : (s.enableTicks).ccv = s.ccv := rfl
@[simp] theorem State.enableTicks_tickpend (s : State) : (s.enableTicks).tickpend = s.tickpend := rfl
@[simp] theorem State.enableTicks_run (s : State) : (s.enableTicks).run = true := rfl
@[simp] theorem State.enableTicks_cnt0 (s : State) : (s.enableTicks).cnt0 = s.cnt0 := rfl
@[simp] theorem State.enableTicks_cnt1 (s : State) : (s.enableTicks).cnt1 = s.cnt1 := rfl
@[simp] theorem State.enableTicks_rspStatus (s : State) : (s.enableTicks).rspStatus = s.rspStatus := rfl
@[simp] theorem State.enableTicks_rsp (s : State) : (s.enableTicks).rsp = s.rsp := rfl
@[simp] theorem State.enableTicks_inputs (s : State) : (s.enableTicks).inputs = s.inputs := rfl

@[simp] theorem State.respond_cfg (s : State) (st : Status) (d : Word8) : (s.respond st d).cfg = s.cfg := rfl
@[simp] theorem State.respond_duty (s : State) (st : Status) (d : Word8) : (s.respond st d).duty = s.duty := rfl
@[simp] theorem State.respond_dir (s : State) (st : Status) (d : Word8) : (s.respond st d).dir = s.dir := rfl
@[simp] theorem State.respond_sdcnt0 (s : State) (st : Status) (d : Word8) : (s.respond st d).sdcnt0 = s.sdcnt0 := rfl
@[simp] theorem State.respond_sdcnt2 (s : State) (st : Status) (d : Word8) : (s.respond st d).sdcnt2 = s.sdcnt2 := rfl
@[simp] theorem State.respond_mask (s : State) (st : Status) (d : Word8) : (s.respond st d).mask = s.mask := rfl
@[simp] theorem State.respond_ccvb (s : State) (st : Status) (d : Word8) : (s.respond st d).ccvb = s.ccvb := rfl
@[simp] theorem State.respond_ccv (s : State) (st : Status) (d : Word8) : (s.respond st d).ccv = s.ccv := rfl
@[simp] theorem State.respond_tickpend (s : State) (st : Status) (d : Word8) : (s.respond st d).tickpend = s.tickpend := rfl
@[simp] theorem State.respond_run (s : State) (st : Status) (d : Word8) : (s.respond st d).run = s.run := rfl
@[simp] theorem State.respond_cnt0 (s : State) (st : Status) (d : Word8) : (s.respond st d).cnt0 = s.cnt0 := rfl
@[simp] theorem State.respond_cnt1 (s : State) (st : Status) (d : Word8) : (s.respond st d).cnt1 = s.cnt1 := rfl
@[simp] theorem State.respond_rspStatus (s : State) (st : Status) (d : Word8) : (s.respond st d).rspStatus = st := rfl
@[simp] theorem State.respond_rsp (s : State) (st : Status) (d : Word8) : (s.respond st d).rsp = d := rfl
@[simp] theorem State.respond_inputs (s : State) (st : Status) (d : Word8) : (s.respond st d).inputs = s.inputs := rfl

@[simp] theorem State.cmdReject_cfg (s : State) : (s.cmdReject).cfg = s.cfg := rfl
@[simp] theorem State.cmdReject_duty (s : State) : (s.cmdReject).duty = s.duty := rfl
@[simp] theorem State.cmdReject_dir (s : State) : (s.cmdReject).dir = s.dir := rfl
@[simp] theorem State.cmdReject_sdcnt0 (s : State) : (s.cmdReject).sdcnt0 = s.sdcnt0 := rfl
@[simp] theorem State.cmdReject_sdcnt2 (s : State) : (s.cmdReject).sdcnt2 = s.sdcnt2 := rfl
@[simp] theorem State.cmdReject_mask (s : State) : (s.cmdReject).mask = s.mask := rfl
@[simp] theorem State.cmdReject_ccvb (s : State) : (s.cmdReject).ccvb = s.ccvb := rfl
@[simp] theorem State.cmdReject_ccv (s : State) : (s.cmdReject).ccv = s.ccv := rfl
@[simp] theorem State.cmdReject_tickpend (s : State) : (s.cmdReject).tickpend = s.tickpend := rfl
@[simp] theorem State.cmdReject_run (s : State) : (s.cmdReject).run = s.run := rfl
@[simp] theorem State.cmdReject_cnt0 (s : State) : (s.cmdReject).cnt0 = s.cnt0 := rfl
@[simp] theorem State.cmdReject_cnt1 (s : State) : (s.cmdReject).cnt1 = s.cnt1 := rfl
@[simp] theorem State.cmdReject_rspStatus (s : State) : (s.cmdReject).rspStatus = .reject := rfl
@[simp] theorem State.cmdReject_rsp (s : State) : (s.cmdReject).rsp = 0 := rfl
@[simp] theorem State.cmdReject_inputs (s : State) : (s.cmdReject).inputs = s.inputs := rfl

@[simp] theorem State.withDuty_cfg (s : State) (c : Ch) (v : Nat) : (s.withDuty c v).cfg = s.cfg := rfl
@[simp] theorem State.withDuty_duty (s : State) (c : Ch) (v : Nat) : (s.withDuty c v).duty = s.duty.set c v := rfl
@[simp] theorem State.withDuty_dir (s : State) (c : Ch) (v : Nat) : (s.withDuty c v).dir = s.dir := rfl
@[simp] theorem State.withDuty_sdcnt0 (s : State) (c : Ch) (v : Nat) : (s.withDuty c v).sdcnt0 = s.sdcnt0 := rfl
@[simp] theorem State.withDuty_sdcnt2 (s : State) (c : Ch) (v : Nat) : (s.withDuty c v).sdcnt2 = s.sdcnt2 := rfl
@[simp] theorem State.withDuty_mask (s : State) (c : Ch) (v : Nat) : (s.withDuty c v).mask = s.mask := rfl
@[simp] theorem State.withDuty_ccvb (s : State) (c : Ch) (v : Nat) : (s.withDuty c v).ccvb = s.ccvb := rfl
@[simp] theorem State.withDuty_ccv (s : State) (c : Ch) (v : Nat) : (s.withDuty c v).ccv = s.ccv := rfl
@[simp] theorem State.withDuty_tickpend (s : State) (c : Ch) (v : Nat) : (s.withDuty c v).tickpend = s.tickpend := rfl
@[simp] theorem State.withDuty_run (s : State) (c : Ch) (v : Nat) : (s.withDuty c v).run = s.run := rfl
@[simp] theorem State.withDuty_cnt0 (s : State) (c : Ch) (v : Nat) : (s.withDuty c v).cnt0 = s.cnt0 := rfl
@[simp] theorem State.withDuty_cnt1 (s : State) (c : Ch) (v : Nat) : (s.withDuty c v).cnt1 = s.cnt1 := rfl
@[simp] theorem State.withDuty_rspStatus (s : State) (c : Ch) (v : Nat) : (s.withDuty c v).rspStatus = s.rspStatus := rfl
@[simp] theorem State.withDuty_rsp (s : State) (c : Ch) (v : Nat) : (s.withDuty c v).rsp = s.rsp := rfl
@[simp] theorem State.withDuty_inputs (s : State) (c : Ch) (v : Nat) : (s.withDuty c v).inputs = s.inputs := rfl

@[simp] theorem State.memWrite_cfg (s : State) (c : Ch) (v : Nat) : (s.memWrite c v).cfg = s.cfg := rfl
@[simp] theorem State.memWrite_duty (s : State) (c : Ch) (v : Nat) : (s.memWrite c v).duty = s.duty := rfl
@[simp] theorem State.memWrite_dir (s : State) (c : Ch) (v : Nat) : (s.memWrite c v).dir = s.dir := rfl
@[simp] theorem State.memWrite_sdcnt0 (s : State) (c : Ch) (v : Nat) : (s.memWrite c v).sdcnt0 = s.sdcnt0 := rfl
@[simp] theorem State.memWrite_sdcnt2 (s : State) (c : Ch) (v : Nat) : (s.memWrite c v).sdcnt2 = s.sdcnt2 := rfl
@[simp] theorem State.memWrite_mask (s : State) (c : Ch) (v : Nat) : (s.memWrite c v).mask = s.mask := rfl
@[simp] theorem State.memWrite_ccvb (s : State) (c : Ch) (v : Nat) : (s.memWrite c v).ccvb = s.ccvb.set c v := rfl
@[simp] theorem State.memWrite_ccv (s : State) (c : Ch) (v : Nat) : (s.memWrite c v).ccv = s.ccv := rfl
@[simp] theorem State.memWrite_tickpend (s : State) (c : Ch) (v : Nat) : (s.memWrite c v).tickpend = s.tickpend := rfl
@[simp] theorem State.memWrite_run (s : State) (c : Ch) (v : Nat) : (s.memWrite c v).run = s.run := rfl
@[simp] theorem State.memWrite_cnt0 (s : State) (c : Ch) (v : Nat) : (s.memWrite c v).cnt0 = s.cnt0 := rfl
@[simp] theorem State.memWrite_cnt1 (s : State) (c : Ch) (v : Nat) : (s.memWrite c v).cnt1 = s.cnt1 := rfl
@[simp] theorem State.memWrite_rspStatus (s : State) (c : Ch) (v : Nat) : (s.memWrite c v).rspStatus = s.rspStatus := rfl
@[simp] theorem State.memWrite_rsp (s : State) (c : Ch) (v : Nat) : (s.memWrite c v).rsp = s.rsp := rfl
@[simp] theorem State.memWrite_inputs (s : State) (c : Ch) (v : Nat) : (s.memWrite c v).inputs = s.inputs := rfl

@[simp] theorem State.periodLatch_cfg (s : State) : (s.periodLatch).cfg = s.cfg := rfl
@[simp] theorem State.periodLatch_duty (s : State) : (s.periodLatch).duty = s.duty := rfl
@[simp] theorem State.periodLatch_dir (s : State) : (s.periodLatch).dir = s.dir := rfl
@[simp] theorem State.periodLatch_sdcnt0 (s : State) : (s.periodLatch).sdcnt0 = s.sdcnt0 := rfl
@[simp] theorem State.periodLatch_sdcnt2 (s : State) : (s.periodLatch).sdcnt2 = s.sdcnt2 := rfl
@[simp] theorem State.periodLatch_mask (s : State) : (s.periodLatch).mask = s.mask := rfl
@[simp] theorem State.periodLatch_ccvb (s : State) : (s.periodLatch).ccvb = s.ccvb := rfl
@[simp] theorem State.periodLatch_ccv (s : State) : (s.periodLatch).ccv = s.ccvb := rfl
@[simp] theorem State.periodLatch_tickpend (s : State) : (s.periodLatch).tickpend = s.tickpend := rfl
@[simp] theorem State.periodLatch_run (s : State) : (s.periodLatch).run = s.run := rfl
@[simp] theorem State.periodLatch_cnt0 (s : State) : (s.periodLatch).cnt0 = s.cnt0 := rfl
@[simp] theorem State.periodLatch_cnt1 (s : State) : (s.periodLatch).cnt1 = s.cnt1 := rfl
@[simp] theorem State.periodLatch_rspStatus (s : State) : (s.periodLatch).rspStatus = s.rspStatus := rfl
@[simp] theorem State.periodLatch_rsp (s : State) : (s.periodLatch).rsp = s.rsp := rfl
@[simp] theorem State.periodLatch_inputs (s : State) : (s.periodLatch).inputs = s.inputs := rfl

@[simp] theorem State.resetFields_cfg (s : State) : (s.resetFields).cfg = s.cfg := rfl
@[simp] theorem State.resetFields_duty (s : State) : (s.resetFields).duty = Tri.all 0 := rfl
@[simp] theorem State.resetFields_dir (s : State) : (s.resetFields).dir = Tri.all .falling := rfl
@[simp] theorem State.resetFields_sdcnt0 (s : State) : (s.resetFields).sdcnt0 = s.cfg.params.sdinit0 := rfl
@[simp] theorem State.resetFields_sdcnt2 (s : State) : (s.resetFields).sdcnt2 = s.cfg.params.sdinit2 := rfl
@[simp] theorem State.resetFields_mask (s : State) : (s.resetFields).mask = 0 := rfl
@[simp] theorem State.resetFields_ccvb (s : State) : (s.resetFields).ccvb = Tri.all 0 := rfl
@[simp] theorem State.resetFields_ccv (s : State) : (s.resetFields).ccv = Tri.all 0 := rfl
@[simp] theorem State.resetFields_tickpend (s : State) : (s.resetFields).tickpend = false := rfl
@[simp] theorem State.resetFields_run (s : State) : (s.resetFields).run = false := rfl
@[simp] theorem State.resetFields_cnt0 (s : State) : (s.resetFields).cnt0 = 0 := rfl
@[simp] theorem State.resetFields_cnt1 (s : State) : (s.resetFields).cnt1 = 0 := rfl
@[simp] theorem State.resetFields_rspStatus (s : State) : (s.resetFields).rspStatus = .ok := rfl
@[simp] theorem State.resetFields_rsp (s : State) : (s.resetFields).rsp = 0 := rfl
@[simp] theorem State.resetFields_inputs (s : State) : (s.resetFields).inputs = s.inputs := rfl

@[simp] theorem State.endCycle_cfg (s : State) : (s.endCycle).cfg = s.cfg := rfl
@[simp] theorem State.endCycle_duty (s : State) : (s.endCycle).duty = s.duty := rfl
@[simp] theorem State.endCycle_dir (s : State) : (s.endCycle).dir = s.dir := rfl
@[simp] theorem State.endCycle_sdcnt0 (s : State) : (s.endCycle).sdcnt0 = s.sdcnt0 := rfl
@[simp] theorem State.endCycle_sdcnt2 (s : State) : (s.endCycle).sdcnt2 = s.sdcnt2 := rfl
@[simp] theorem State.endCycle_mask (s : State) : (s.endCycle).mask = s.mask := rfl
@[simp] theorem State.endCycle_ccvb (s : State) : (s.endCycle).ccvb = s.ccvb := rfl
@[simp] theorem State.endCycle_ccv (s : State) : (s.endCycle).ccv = s.ccv := rfl
@[simp] theorem State.endCycle_tickpend (s : State) : (s.endCycle).tickpend = s.tickpend := rfl
@[simp] theorem State.endCycle_run (s : State) : (s.endCycle).run = s.run := rfl
@[simp] theorem State.endCycle_cnt0 (s : State) : (s.endCycle).cnt0 = s.cnt0 := rfl
@[simp] theorem State.endCycle_cnt1 (s : State) : (s.endCycle).cnt1 = s.cnt1 := rfl
@[simp] theorem State.endCycle_rspStatus (s : State) : (s.endCycle).rspStatus = s.rspStatus := rfl
@[simp] theorem State.endCycle_rsp (s : State) : (s.endCycle).rsp = s.rsp := rfl
@[simp] theorem State.endCycle_inputs (s : State) : (s.endCycle).inputs = s.inputs.tail := rfl

@[simp] theorem State.withPorts_cfg (s : State) (p : Cycle) : (s.withPorts p).cfg = s.cfg := rfl
@[simp] theorem State.withPorts_duty (s : State) (p : Cycle) : (s.withPorts p).duty = s.duty := rfl
@[simp] theorem State.withPorts_dir (s : State) (p : Cycle) : (s.withPorts p).dir = s.dir := rfl
@[simp] theorem State.withPorts_sdcnt0 (s : State) (p : Cycle) : (s.withPorts p).sdcnt0 = s.sdcnt0 := rfl
@[simp] theorem State.withPorts_sdcnt2 (s : State) (p : Cycle) : (s.withPorts p).sdcnt2 = s.sdcnt2 := rfl
@[simp] theorem State.withPorts_mask (s : State) (p : Cycle) : (s.withPorts p).mask = s.mask := rfl
@[simp] theorem State.withPorts_ccvb (s : State) (p : Cycle) : (s.withPorts p).ccvb = s.ccvb := rfl
@[simp] theorem State.withPorts_ccv (s : State) (p : Cycle) : (s.withPorts p).ccv = s.ccv := rfl
@[simp] theorem State.withPorts_tickpend (s : State) (p : Cycle) : (s.withPorts p).tickpend = s.tickpend := rfl
@[simp] theorem State.withPorts_run (s : State) (p : Cycle) : (s.withPorts p).run = s.run := rfl
@[simp] theorem State.withPorts_cnt0 (s : State) (p : Cycle) : (s.withPorts p).cnt0 = s.cnt0 := rfl
@[simp] theorem State.withPorts_cnt1 (s : State) (p : Cycle) : (s.withPorts p).cnt1 = s.cnt1 := rfl
@[simp] theorem State.withPorts_rspStatus (s : State) (p : Cycle) : (s.withPorts p).rspStatus = s.rspStatus := rfl
@[simp] theorem State.withPorts_rsp (s : State) (p : Cycle) : (s.withPorts p).rsp = s.rsp := rfl
@[simp] theorem State.withPorts_inputs (s : State) (p : Cycle) : (s.withPorts p).inputs = p :: s.inputs.tail := rfl

end Machine

end Sys2Proof
end

