-- ==== Sys2Proof/Laws/Ops.lean ====
section
/-! SUPPORT. One lemma per shared operation: everything it can do. -/

namespace Sys2Proof.Machine

/-! ### Parameters and operands -/

theorem divOf_pos (cfg : Config) (c : Ch) : 1 ≤ divOf cfg c := by
  obtain ⟨h0, h2, -⟩ := cfg.ok
  cases c
  · exact h0
  · exact le_rfl
  · exact h2

theorem maxDuty_eq_div (cfg : Config) (c : Ch) : maxDuty cfg c = cfg.params.top0 / divOf cfg c := by
  cases c <;> simp [maxDuty, divOf]

theorem maxDuty_le_top0 (cfg : Config) (c : Ch) : maxDuty cfg c ≤ cfg.params.top0 := by
  rw [maxDuty_eq_div]; exact Nat.div_le_self _ _

theorem maskResponse_toNat (m : Mask) : (maskResponse m).toNat = m.toNat := by
  revert m; decide

/-! ### Chaining outcomes -/

@[simp] theorem andThen_next (s : State) (f : State → Host.Outcome State Fault Refusal) : andThen (.next s) f = f s := rfl
@[simp] theorem andThen_fault (r : Fault) (f : State → Host.Outcome State Fault Refusal) :
    andThen (.fault r) f = .fault r := rfl
@[simp] theorem andThen_refused (r : Refusal) (f : State → Host.Outcome State Fault Refusal) :
    andThen (.refused r) f = .refused r := rfl

theorem andThen_eq_next {o : Host.Outcome State Fault Refusal} {f : State → Host.Outcome State Fault Refusal} {t : State} :
    andThen o f = .next t ↔ ∃ s, o = .next s ∧ f s = .next t := by
  cases o <;> simp

/-! ### The compare space -/

/-- A word read after it is written holds the value written. -/
@[simp] theorem memRead_memWrite_self (s : State) (c : Ch) (v : Nat) : (s.memWrite c v).memRead c = v := by
  simp [State.memRead]

/-- A write leaves every other word as it was. -/
theorem memRead_memWrite_other (s : State) {c d : Ch} (v : Nat) (h : d ≠ c) :
    (s.memWrite c v).memRead d = s.memRead d := by
  simp [State.memRead, Tri.get_set_other _ _ h]

/-- `SetDuty` answers a state only within its precondition, and then it has written that one word. -/
theorem setDuty_eq_ok {s t : State} {c : Ch} {v : Nat} :
    s.setDuty c v = .ok t ↔ v ≤ s.cfg.params.top0 ∧ t = s.memWrite c v := by
  unfold State.setDuty
  split <;> simp_all [eq_comm]

theorem setDuty_of_le {s : State} {c : Ch} {v : Nat} (h : v ≤ s.cfg.params.top0) :
    s.setDuty c v = .ok (s.memWrite c v) := if_pos h

theorem setDuty_of_gt {s : State} {c : Ch} {v : Nat} (h : s.cfg.params.top0 < v) :
    s.setDuty c v = .error .setDutyRange := if_neg (Nat.not_le.mpr h)

/-! ### The timers -/

theorem countPwm_wrap {s : State} (h : s.cnt0 = s.cfg.params.top0) :
    s.countPwm = { s with cnt0 := 0, ccv := s.ccvb } := if_pos h

theorem countPwm_count {s : State} (h : s.cnt0 ≠ s.cfg.params.top0) :
    s.countPwm = { s with cnt0 := s.cnt0 + 1 } := if_neg h

/-- Everything one count of the PWM timer can do. -/
theorem countPwm_cases (s : State) :
    (s.cnt0 = s.cfg.params.top0 ∧ s.countPwm = { s with cnt0 := 0, ccv := s.ccvb }) ∨
      (s.cnt0 ≠ s.cfg.params.top0 ∧ s.countPwm = { s with cnt0 := s.cnt0 + 1 }) := by
  by_cases h : s.cnt0 = s.cfg.params.top0
  · exact .inl ⟨h, countPwm_wrap h⟩
  · exact .inr ⟨h, countPwm_count h⟩

theorem countTick_held {s : State} (h : s.run = false) : s.countTick = s := by simp [State.countTick, h]

theorem countTick_wrap {s : State} (h : s.run = true) (h1 : s.cnt1 = s.cfg.params.top1) :
    s.countTick = { s with cnt1 := 0, tickpend := true } := by simp [State.countTick, h, h1, State.raiseTick]

theorem countTick_count {s : State} (h : s.run = true) (h1 : s.cnt1 ≠ s.cfg.params.top1) :
    s.countTick = { s with cnt1 := s.cnt1 + 1 } := by simp [State.countTick, h, h1]

/-- Everything one count of the tick timer can do. -/
theorem countTick_cases (s : State) :
    (s.run = false ∧ s.countTick = s) ∨
      (s.run = true ∧ s.cnt1 = s.cfg.params.top1 ∧ s.countTick = { s with cnt1 := 0, tickpend := true }) ∨
      (s.run = true ∧ s.cnt1 ≠ s.cfg.params.top1 ∧ s.countTick = { s with cnt1 := s.cnt1 + 1 }) := by
  rcases Bool.eq_false_or_eq_true s.run with h | h
  · by_cases h1 : s.cnt1 = s.cfg.params.top1
    · exact .inr (.inl ⟨h, h1, countTick_wrap h h1⟩)
    · exact .inr (.inr ⟨h, h1, countTick_count h h1⟩)
  · exact .inl ⟨h, countTick_held h⟩

end Sys2Proof.Machine
end

