-- ==== Sys2Proof/Laws/Engine.lean ====
section
/-! SUPPORT. What the stepping engine can do, said once: each gated step in closed form, and all of SVC. -/

namespace Sys2Proof.Machine

/-! ### Gate, Step and Advance -/

theorem gate_iff (s : State) (c : Ch) : s.gate c = true ↔ s.sdcnt c = divOf s.cfg c := by
  cases c <;> simp [State.gate, State.sdcnt, divOf]

theorem stepTarget_rising {s : State} {c : Ch} (h : s.dir.get c = .rising) :
    s.stepTarget c = if s.duty.get c < maxDuty s.cfg c then some (s.duty.get c + 1) else none := by
  simp [State.stepTarget, h]

theorem stepTarget_falling {s : State} {c : Ch} (h : s.dir.get c = .falling) :
    s.stepTarget c = if 0 < s.duty.get c then some (s.duty.get c - 1) else none := by
  simp [State.stepTarget, h]

/-- Every new duty is one unit away from the old one, upward only below the bound. -/
theorem stepTarget_eq_some {s : State} {c : Ch} {v : Nat} (h : s.stepTarget c = some v) :
    (s.dir.get c = .rising ∧ s.duty.get c < maxDuty s.cfg c ∧ v = s.duty.get c + 1) ∨
      (s.dir.get c = .falling ∧ 0 < s.duty.get c ∧ s.duty.get c = v + 1) := by
  cases hd : s.dir.get c
  · rw [stepTarget_falling hd] at h
    split at h
    · cases h; right; exact ⟨rfl, ‹_›, by omega⟩
    · cases h
  · rw [stepTarget_rising hd] at h
    split at h
    · cases h; left; exact ⟨rfl, ‹_›, rfl⟩
    · cases h

/-- Within the duty bound every push meets the precondition of `SetDuty` (20_memory.md R43). -/
theorem stepTarget_le {s : State} {c : Ch} {v : Nat} (hle : s.duty.get c ≤ maxDuty s.cfg c)
    (h : s.stepTarget c = some v) : v ≤ s.cfg.params.top0 := by
  have := maxDuty_le_top0 s.cfg c
  rcases stepTarget_eq_some h with ⟨-, h1, rfl⟩ | ⟨-, -, h2⟩ <;> omega

/-- The model's order of the two checks is the spec's `if Gate(c) then Step(c)` (41_fade_engine.md R80). -/
theorem State.gatedStep_eq (s : State) (c : Ch) :
    s.gatedStep c = if s.gate c then s.stepChannel c else .ok s := by
  unfold State.gatedStep State.stepChannel
  cases s.stepTarget c <;> simp

theorem advanceCount_bounds {d n : Nat} (h : 1 ≤ d) (hn : n ≤ d) : 1 ≤ advanceCount d n ∧ advanceCount d n ≤ d := by
  unfold advanceCount; split <;> omega

/-! ### SVC in closed form -/

/-- The duty of channel `c` after an SVC. -/
def State.dutyAfter (s : State) (c : Ch) : Nat :=
  if s.gate c then (s.stepTarget c).getD (s.duty.get c) else s.duty.get c

/-- The buffered compare value of channel `c` after an SVC. -/
def State.ccvbAfter (s : State) (c : Ch) : Nat :=
  if s.gate c then (s.stepTarget c).getD (s.ccvb.get c) else s.ccvb.get c

/-- What channel `c` pushes in an SVC, if anything, is within the precondition of `SetDuty`. -/
def State.PushOk (s : State) (c : Ch) : Prop :=
  ∀ v, s.gate c = true → s.stepTarget c = some v → v ≤ s.cfg.params.top0

/-- The state after the gated step of channel `c`. -/
def State.stepped (s : State) (c : Ch) : State :=
  { s with duty := s.duty.set c (s.dutyAfter c), ccvb := s.ccvb.set c (s.ccvbAfter c) }

/-- The state after an SVC. -/
def State.afterSvc (s : State) : State :=
  { s with
    duty := Tri.ofFn s.dutyAfter
    ccvb := Tri.ofFn s.ccvbAfter
    sdcnt0 := advanceCount s.cfg.params.div0 s.sdcnt0
    sdcnt2 := advanceCount s.cfg.params.div2 s.sdcnt2
    tickpend := false }

theorem set_get_self {α : Type} (t : Tri α) (c : Ch) : t.set c (t.get c) = t := by cases c <;> rfl

theorem gatedStep_eq_ok {s t : State} {c : Ch} : s.gatedStep c = .ok t ↔ s.PushOk c ∧ t = s.stepped c := by
  rw [State.gatedStep_eq]
  unfold State.stepChannel State.PushOk State.stepped State.dutyAfter State.ccvbAfter
  cases hg : s.gate c
  · simp only [set_get_self, Bool.false_eq_true, if_false, Except.ok.injEq, false_implies, implies_true,
      true_and]
    exact eq_comm
  · cases hv : s.stepTarget c
    · simp only [set_get_self, if_true, Option.getD_none, Except.ok.injEq, reduceCtorEq, false_implies, implies_true,
        true_and]
      exact eq_comm
    · simp [setDuty_eq_ok, State.memWrite, State.withDuty]

/-- A gated step of one channel is not seen by another channel's gate and step. -/
theorem stepped_other {s : State} {c d : Ch} (h : d ≠ c) :
    (s.stepped c).gate d = s.gate d ∧ (s.stepped c).stepTarget d = s.stepTarget d ∧
      (s.stepped c).duty.get d = s.duty.get d ∧ (s.stepped c).ccvb.get d = s.ccvb.get d := by
  have hduty : (s.stepped c).duty.get d = s.duty.get d := Tri.get_set_other _ _ h
  refine ⟨?_, ?_, hduty, Tri.get_set_other _ _ h⟩
  · cases d <;> rfl
  · unfold State.stepTarget
    rw [hduty]; rfl

theorem stepped_after {s : State} {c d : Ch} (h : d ≠ c) :
    ((s.stepped c).PushOk d ↔ s.PushOk d) ∧ (s.stepped c).dutyAfter d = s.dutyAfter d ∧
      (s.stepped c).ccvbAfter d = s.ccvbAfter d := by
  obtain ⟨h1, h2, h3, h4⟩ := stepped_other (s := s) h
  refine ⟨?_, ?_, ?_⟩
  · unfold State.PushOk; rw [h1, h2]; rfl
  · unfold State.dutyAfter; rw [h1, h2, h3]
  · unfold State.ccvbAfter; rw [h1, h2, h4]

theorem except_bind_eq_ok {ε α β : Type} {x : Except ε α} {f : α → Except ε β} {b : β} :
    x.bind f = .ok b ↔ ∃ a, x = .ok a ∧ f a = .ok b := by
  cases x <;> simp [Except.bind]

/-- Everything the gated steps of one SVC can do, whichever order of the channels. -/
theorem stepAll_eq_ok {s t : State} :
    s.stepAll = .ok t ↔
      (∀ c, s.PushOk c) ∧ t = { s with duty := Tri.ofFn s.dutyAfter, ccvb := Tri.ofFn s.ccvbAfter } := by
  have h10 := stepped_after (s := s) (c := .c0) (d := .c1) (by decide)
  have h20 := stepped_after (s := s) (c := .c0) (d := .c2) (by decide)
  have h21 := stepped_after (s := s.stepped .c0) (c := .c1) (d := .c2) (by decide)
  have hres : ((s.stepped .c0).stepped .c1).stepped .c2 =
      { s with duty := Tri.ofFn s.dutyAfter, ccvb := Tri.ofFn s.ccvbAfter } := by
    rw [State.stepped, h21.2.1, h21.2.2, h20.2.1, h20.2.2, State.stepped, h10.2.1, h10.2.2]; rfl
  unfold State.stepAll
  simp only [except_bind_eq_ok, gatedStep_eq_ok]
  constructor
  · rintro ⟨_, ⟨p0, rfl⟩, _, ⟨p1, rfl⟩, p2, rfl⟩
    refine ⟨fun c => ?_, hres⟩
    cases c
    · exact p0
    · exact h10.1.mp p1
    · exact h20.1.mp (h21.1.mp p2)
  · rintro ⟨hp, rfl⟩
    exact ⟨_, ⟨hp .c0, rfl⟩, _, ⟨h10.1.mpr (hp .c1), rfl⟩, h21.1.mpr (h20.1.mpr (hp .c2)), hres.symm⟩

/-- Everything SVC can do when it completes. -/
theorem execSvc_eq_next {s t : State} :
    execSvc s = .next t ↔ s.tickpend = true ∧ (∀ c, s.PushOk c) ∧ t = s.afterSvc := by
  unfold execSvc
  cases ht : s.tickpend
  · simp
  · cases hs : s.stepAll with
    | error f =>
      simp only [if_true, reduceCtorEq, false_iff, not_and]
      intro _ hp
      exact absurd (stepAll_eq_ok.mpr ⟨hp, rfl⟩) (by simp [hs])
    | ok u =>
      obtain ⟨hp, rfl⟩ := stepAll_eq_ok.mp hs
      simp only [if_true, Host.Outcome.next.injEq, true_and]
      exact ⟨fun h => ⟨hp, h ▸ rfl⟩, fun h => h.2 ▸ rfl⟩

/-- Within the duty bounds every push is in range. -/
theorem pushOk_of_duty_le {s : State} (h : ∀ c, s.duty.get c ≤ maxDuty s.cfg c) (c : Ch) : s.PushOk c :=
  fun _ _ hv => stepTarget_le (h c) hv

/-- SVC completes whenever a tick is pending and the duties keep their bounds. -/
theorem execSvc_of_duty_le {s : State} (ht : s.tickpend = true) (h : ∀ c, s.duty.get c ≤ maxDuty s.cfg c) :
    execSvc s = .next s.afterSvc :=
  execSvc_eq_next.mpr ⟨ht, pushOk_of_duty_le h, rfl⟩

section AfterSvc
variable (s : State)
@[simp] theorem State.afterSvc_cfg : s.afterSvc.cfg = s.cfg := rfl
@[simp] theorem State.afterSvc_duty (c : Ch) : s.afterSvc.duty.get c = s.dutyAfter c := Tri.get_ofFn _ c
@[simp] theorem State.afterSvc_dir : s.afterSvc.dir = s.dir := rfl
@[simp] theorem State.afterSvc_sdcnt0 : s.afterSvc.sdcnt0 = advanceCount s.cfg.params.div0 s.sdcnt0 := rfl
@[simp] theorem State.afterSvc_sdcnt2 : s.afterSvc.sdcnt2 = advanceCount s.cfg.params.div2 s.sdcnt2 := rfl
@[simp] theorem State.afterSvc_mask : s.afterSvc.mask = s.mask := rfl
@[simp] theorem State.afterSvc_ccvb (c : Ch) : s.afterSvc.ccvb.get c = s.ccvbAfter c := Tri.get_ofFn _ c
@[simp] theorem State.afterSvc_ccv : s.afterSvc.ccv = s.ccv := rfl
@[simp] theorem State.afterSvc_tickpend : s.afterSvc.tickpend = false := rfl
@[simp] theorem State.afterSvc_run : s.afterSvc.run = s.run := rfl
@[simp] theorem State.afterSvc_cnt0 : s.afterSvc.cnt0 = s.cnt0 := rfl
@[simp] theorem State.afterSvc_cnt1 : s.afterSvc.cnt1 = s.cnt1 := rfl
@[simp] theorem State.afterSvc_rspStatus : s.afterSvc.rspStatus = s.rspStatus := rfl
@[simp] theorem State.afterSvc_rsp : s.afterSvc.rsp = s.rsp := rfl
@[simp] theorem State.afterSvc_inputs : s.afterSvc.inputs = s.inputs := rfl
end AfterSvc

end Sys2Proof.Machine
end

