-- ==== Sys2Proof/Laws/PerInstr.lean ====
section
/-! SUPPORT. Statements made per instruction: the encoding of every operation falls under the operation's own row of the
opcode table, and that row is in the table. -/

namespace Sys2Proof.Laws.MatchesTable

/-- The instruction's encoding falls under its row, and its row stands in the opcode table. -/
def Statement (i : Instr) : Prop := i.row.covers (encode i) = true ∧ i.row ∈ opcodeTable

theorem getst : Statement .getst := by unfold Statement; decide
theorem setst (m : Mask) : Statement (.setst m) := by unfold Statement; revert m; decide
theorem run : Statement .run := by unfold Statement; decide
theorem t0clk : Statement .t0clk := by unfold Statement; decide
theorem t1clk : Statement .t1clk := by unfold Statement; decide
theorem svc : Statement .svc := by unfold Statement; decide
theorem reset : Statement .reset := by unfold Statement; decide

end Sys2Proof.Laws.MatchesTable
end

