-- ==== Sys2Proof/Laws/Step.lean ====
section
/-! SUPPORT. What each operation answers, what a step can do, and that no operation touches the input lines. -/

namespace Sys2Proof.Machine

/-! ### Each operation -/

theorem exec_getst (s : State) : exec .getst s = .next (s.respond .ok (maskResponse s.mask)) := rfl
theorem exec_setst (m : Mask) (s : State) : exec (.setst m) s = .next ((s.setTargets m).respond .ok 0) := rfl
theorem exec_run (s : State) : exec .run s = .next (s.enableTicks.respond .ok 0) := rfl
theorem exec_t0clk (s : State) : exec .t0clk s = .next s.countPwm := rfl
theorem exec_t1clk (s : State) : exec .t1clk s = .next s.countTick := rfl
theorem exec_reset (s : State) : exec .reset s = .next s.resetFields := rfl
theorem exec_svc (s : State) : exec .svc s = execSvc s := rfl

/-- Every operation but SVC completes in every state. -/
theorem exec_completes {i : Instr} (h : i ≠ .svc) (s : State) : ∃ t, exec i s = .next t := by
  cases i <;> first | exact absurd rfl h | exact ⟨_, rfl⟩

/-- What an operation leaves in the input lines and the parameters, for a given change of the input lines. -/
theorem exec_keeps_environment {i : Instr} {s t : State} (h : exec i s = .next t) :
    t.cfg = s.cfg ∧ t.inputs = s.inputs := by
  cases i with
  | getst => cases h; exact ⟨rfl, rfl⟩
  | setst m => cases h; exact ⟨rfl, rfl⟩
  | run => cases h; exact ⟨rfl, rfl⟩
  | t0clk => cases h; rcases countPwm_cases s with ⟨-, e⟩ | ⟨-, e⟩ <;> rw [e] <;> exact ⟨rfl, rfl⟩
  | t1clk =>
    cases h
    rcases countTick_cases s with ⟨-, e⟩ | ⟨-, -, e⟩ | ⟨-, -, e⟩ <;> rw [e] <;> exact ⟨rfl, rfl⟩
  | svc => obtain ⟨-, -, rfl⟩ := execSvc_eq_next.mp h; exact ⟨rfl, rfl⟩
  | reset => cases h; exact ⟨rfl, rfl⟩

/-! ### Performing a signal, and a step -/

theorem perform_of_ok {sig : Signal} {i : Instr} (h : decode sig = .ok i) (s : State) : perform sig s = exec i s := by
  simp [perform, h]

theorem perform_of_error {sig : Signal} {r : Reject} (h : decode sig = .error r) (s : State) :
    perform sig s = .next s.cmdReject := by
  simp [perform, h]

/-- Everything performing a signal can do: an operation, or `CmdReject`. -/
theorem perform_cases {sig : Signal} {s t : State} (h : perform sig s = .next t) :
    (∃ i, decode sig = .ok i ∧ exec i s = .next t) ∨ (∃ r, decode sig = .error r ∧ t = s.cmdReject) := by
  cases hd : decode sig with
  | ok i => exact .inl ⟨i, rfl, by rwa [perform_of_ok hd] at h⟩
  | error r => rw [perform_of_error hd] at h; cases h; exact .inr ⟨r, rfl, rfl⟩

theorem step_of_due {s : State} {sig : Signal} (h : s.due = some sig) : step s = perform sig (s.consume sig) := by
  simp [step, h]

theorem step_of_idle {s : State} (h : s.due = none) : step s = .next s.endCycle := by simp [step, h]

/-- Everything a step can do: an operation, `CmdReject`, or the end of a cycle. -/
theorem step_cases {s t : State} (h : step s = .next t) :
    (∃ sig i, s.due = some sig ∧ decode sig = .ok i ∧ exec i (s.consume sig) = .next t) ∨
      (∃ sig r, s.due = some sig ∧ decode sig = .error r ∧ t = (s.consume sig).cmdReject) ∨
      (s.due = none ∧ t = s.endCycle) := by
  cases hd : s.due with
  | none => rw [step_of_idle hd] at h; cases h; exact .inr (.inr ⟨rfl, rfl⟩)
  | some sig =>
    rw [step_of_due hd] at h
    rcases perform_cases h with ⟨i, hi, ht⟩ | ⟨r, hr, ht⟩
    · exact .inl ⟨sig, i, rfl, hi, ht⟩
    · exact .inr (.inl ⟨sig, r, rfl, hr, ht⟩)

/-- Taking an operation out of a cycle changes the input lines and nothing else. -/
theorem consume_eq (s : State) (sig : Signal) : s.consume sig = { s with inputs := (s.consume sig).inputs } := by
  cases sig with
  | cmd w => rfl
  | event l => cases l <;> rfl

theorem endCycle_eq (s : State) : s.endCycle = { s with inputs := s.inputs.tail } := rfl

/-! ### The environment and the operations do not see each other -/

theorem gatedStep_withInputs (s : State) (l : List Cycle) (c : Ch) :
    State.gatedStep { s with inputs := l } c = (s.gatedStep c).map (fun t => { t with inputs := l }) := by
  have hg : State.gate { s with inputs := l } c = s.gate c := by cases c <;> rfl
  have ht : State.stepTarget { s with inputs := l } c = s.stepTarget c := rfl
  rw [State.gatedStep_eq, State.gatedStep_eq, hg]
  unfold State.stepChannel
  rw [ht]
  cases s.gate c
  · rfl
  · cases s.stepTarget c with
    | none => rfl
    | some v =>
      simp only [if_true, State.setDuty, State.withDuty_cfg]
      by_cases hv : v ≤ s.cfg.params.top0
      · simp only [hv, if_true]; rfl
      · simp only [hv, if_false]; rfl

theorem stepAll_withInputs (s : State) (l : List Cycle) :
    State.stepAll { s with inputs := l } = s.stepAll.map (fun t => { t with inputs := l }) := by
  unfold State.stepAll
  rw [gatedStep_withInputs]
  cases s.gatedStep .c0 with
  | error => rfl
  | ok u =>
    simp only [Except.map, Except.bind]
    rw [gatedStep_withInputs]
    cases u.gatedStep .c1 with
    | error => rfl
    | ok v => simp only [Except.map]; rw [gatedStep_withInputs]; rfl

/-- An operation does the same whatever inputs are to come, and leaves them as they are. -/
theorem exec_withInputs (i : Instr) (s : State) (l : List Cycle) :
    exec i { s with inputs := l } = andThen (exec i s) (fun t => .next { t with inputs := l }) := by
  cases i with
  | svc =>
    rw [exec_svc, exec_svc]
    unfold execSvc
    cases ht : s.tickpend
    · simp
    · simp only [if_true]
      have := stepAll_withInputs s l
      rw [ht] at this
      rw [this]
      cases s.stepAll <;> rfl
  | t0clk =>
    simp only [exec_t0clk, andThen_next]
    rcases countPwm_cases s with ⟨h, e⟩ | ⟨h, e⟩ <;> rw [e]
    · rw [countPwm_wrap (by exact h)]
    · rw [countPwm_count (by exact h)]
  | t1clk =>
    simp only [exec_t1clk, andThen_next]
    rcases countTick_cases s with ⟨h, e⟩ | ⟨h, h2, e⟩ | ⟨h, h2, e⟩ <;> rw [e]
    · rw [countTick_held (by exact h)]
    · rw [countTick_wrap (by exact h) (by exact h2)]
    · rw [countTick_count (by exact h) (by exact h2)]
  | getst => rfl
  | setst m => rfl
  | run => rfl
  | reset => rfl

theorem perform_withInputs (sig : Signal) (s : State) (l : List Cycle) :
    perform sig { s with inputs := l } = andThen (perform sig s) (fun t => .next { t with inputs := l }) := by
  cases h : decode sig with
  | ok i => rw [perform_of_ok h, perform_of_ok h, exec_withInputs]
  | error r => rw [perform_of_error h, perform_of_error h]; rfl

/-! ### Runs -/

theorem repeatOp_add (f : State → Host.Outcome State Fault Refusal) (m n : Nat) (s : State) :
    repeatOp f (m + n) s = andThen (repeatOp f m s) (repeatOp f n) := by
  induction m generalizing s with
  | zero => simp [repeatOp]
  | succ m ih =>
    rw [Nat.succ_add]; simp only [repeatOp]
    cases f s <;> simp [ih]

theorem runOps_append (a b : List Instr) (s : State) : runOps (a ++ b) s = andThen (runOps a s) (runOps b) := by
  induction a generalizing s with
  | nil => rfl
  | cons i is ih => simp only [List.cons_append, runOps]; cases exec i s <;> simp [ih]

/-- A property that every operation of a run keeps holds at its end. -/
theorem runOps_induction {P : State → Prop} {Q : Instr → Prop}
    (hkeep : ∀ i s t, Q i → P s → exec i s = .next t → P t) :
    ∀ (ops : List Instr) (s t : State), (∀ i ∈ ops, Q i) → P s → runOps ops s = .next t → P t := by
  intro ops
  induction ops with
  | nil => intro s t _ h e; cases e; exact h
  | cons i is ih =>
    intro s t hq h e
    obtain ⟨u, hu, ht⟩ := andThen_eq_next.mp e
    exact ih u t (fun j hj => hq j (by simp [hj])) (hkeep i s u (hq i (by simp)) h hu) ht

theorem core_run_unfold (M : Host.Core) (n : Nat) (s : M.State) :
    M.run (n + 1) s = match M.step s with
      | .next t => M.run n t
      | .fault r => .fault r
      | .refused r => .refused r := rfl

/-- The host's `n` steps of the machine are `n` repetitions of `step`. -/
theorem core_run_eq_repeatOp (n : Nat) (s : State) : Host.Core.run Sys2Proof.core n s = repeatOp step n s := by
  induction n generalizing s with
  | zero => rfl
  | succ n ih =>
    refine (core_run_unfold Sys2Proof.core n s).trans ?_
    have h : Sys2Proof.core.step s = step s := rfl
    rw [h]
    cases hs : step s with
    | next t => simp only [repeatOp, hs, andThen_next]; exact ih t
    | fault r => simp only [repeatOp, hs, andThen_fault]; rfl
    | refused r => simp only [repeatOp, hs, andThen_refused]; rfl

end Sys2Proof.Machine
end

