-- ==== Sys2Proof/Laws/Traces.lean ====
section
/-! SUPPORT. What the performance of a trace, of a host-level program and of a list of signals can do. -/

namespace Sys2Proof.Machine

/-! ### Traces -/

@[simp] theorem performTrace_nil (s : State) : performTrace [] s = .next s := rfl

theorem performTrace_cons (x : Item) (n : Nat) (r : Trace) (s : State) :
    performTrace ((x, n) :: r) s = andThen (repeatOp (performItem x) n s) (performTrace r) := rfl

/-- An item without a count is performed once. -/
theorem repeatOp_one (f : State → Host.Outcome State Fault Refusal) (s : State) : repeatOp f 1 s = f s := by
  simp only [repeatOp]; cases f s <;> rfl

/-- One operation in front of a trace is performed first. -/
theorem performTrace_op (i : Instr) (r : Trace) (s : State) :
    performTrace ((.op i, 1) :: r) s = andThen (exec i s) (performTrace r) := by
  rw [performTrace_cons, repeatOp_one]; rfl

/-- TICK where it is defined (30_encoding.md R69). -/
theorem tick_of_ready {s : State} (hr : s.run = true) (ht : s.tickpend = false) :
    tick s = andThen (repeatOp (exec .t1clk) (s.cfg.params.top1 + 1) s) (exec .svc) := by
  simp [tick, hr, ht]

/-! ### Host-level programs -/

/-- Everything the translation of a program can be. -/
theorem programTrace_cases (p : List HostCall) :
    (p.any awaitsTicks = true ∧ programTrace p = (.op .run, 1) :: p.map hostCallItem) ∨
      (p.any awaitsTicks = false ∧ programTrace p = p.map hostCallItem) := by
  unfold programTrace
  cases p.any awaitsTicks
  · exact .inr ⟨rfl, rfl⟩
  · exact .inl ⟨rfl, rfl⟩

/-- No call of a program is itself a RUN. -/
theorem hostCallItem_ne_run (c : HostCall) : hostCallItem c ≠ (.op .run, 1) := by cases c <;> simp [hostCallItem]

@[simp] theorem maskAfter_nil (m : Mask) : maskAfter [] m = m := rfl
@[simp] theorem maskAfter_set (m' : Mask) (p : List HostCall) (m : Mask) :
    maskAfter (.setLedsPwm m' :: p) m = maskAfter p m' := rfl
@[simp] theorem maskAfter_get (p : List HostCall) (m : Mask) : maskAfter (.getLedsPwm :: p) m = maskAfter p m := rfl
@[simp] theorem maskAfter_ticks (n : Nat) (p : List HostCall) (m : Mask) :
    maskAfter (.afterTicks n :: p) m = maskAfter p m := rfl

/-! ### Signals along a run -/

@[simp] theorem stepSignals_zero (s : State) : stepSignals 0 s = [] := rfl
@[simp] theorem performAll_nil (s : State) : performAll [] s = .next s := rfl
@[simp] theorem performAll_cons (sig : Signal) (r : List Signal) (s : State) :
    performAll (sig :: r) s = andThen (perform sig s) (performAll r) := rfl

/-- The signal of a step that goes on, and then those of the steps that follow. -/
theorem stepSignals_of_next {s t : State} (h : step s = .next t) (n : Nat) :
    stepSignals (n + 1) s = s.due.toList ++ stepSignals n t := by
  simp [stepSignals, h]

/-- The signals of a run in two parts. -/
theorem stepSignals_add {m : Nat} {s t : State} (h : repeatOp step m s = .next t) (n : Nat) :
    stepSignals (m + n) s = stepSignals m s ++ stepSignals n t := by
  induction m generalizing s with
  | zero => cases h; simp
  | succ m ih =>
    obtain ⟨u, hu, ht⟩ := andThen_eq_next.mp h
    rw [Nat.succ_add, stepSignals_of_next hu, stepSignals_of_next hu, ih ht, List.append_assoc]

end Sys2Proof.Machine
end

