-- ==== Sys2Proof/Tests/Slice0.lean ====
section
/-! SUPPORT. Tests: ill-formed configurations, words decoded by hand, single steps from the vectors of
95_test_vectors.md, and for every statement with hypotheses a state and operands that meet them. -/

namespace Sys2Proof.Tests

open Sys2Proof Sys2Proof.Machine

/-! ### Configurations: one ill-formed term for each check (00_scope.md R11) -/

/-- CFG-T of 95_test_vectors.md section 1. -/
def paramsT : Params := ⟨8, 4, 1, 2, 3, 2, 3⟩

theorem test_wf_accepts_cfgT : paramsT.wf := by decide
theorem test_wf_refuses_div0_zero : ¬ { paramsT with div0 := 0 }.div0Positive := by decide
theorem test_wf_refuses_div2_zero : ¬ { paramsT with div2 := 0 }.div2Positive := by decide
theorem test_wf_refuses_sdinit0_above_div0 : ¬ { paramsT with sdinit0 := 3 }.sdinit0InRange := by decide
theorem test_wf_refuses_sdinit2_zero : ¬ { paramsT with sdinit2 := 0 }.sdinit2InRange := by decide
theorem test_wf_refuses_top0_too_wide : ¬ { paramsT with top0 := 256 }.top0Fits := by decide
theorem test_wf_refuses_top1_too_wide : ¬ { paramsT with top1 := 256 }.top1Fits := by decide
theorem test_wf_needs_every_check : ¬ { paramsT with div0 := 0 }.wf ∧ ¬ { paramsT with top1 := 256 }.wf := by decide
theorem test_powerOn_refuses : State.powerOn { paramsT with div2 := 0 } = .refused .illFormedConfig := by
  rw [State.powerOn, dif_neg (by decide)]

def cfgT : Config := ⟨paramsT, by decide⟩

/-- CFG-1 of 95_test_vectors.md section 1 with `TOP0 = 1`: a tick and a ramp of one step each. -/
def cfgS : Config := ⟨⟨8, 1, 0, 1, 1, 1, 1⟩, by decide⟩

/-! ### Decoding: words written out from 30_encoding.md R58, `op` `rsv` `m` (95_test_vectors.md V-E) -/

theorem test_decode_getst : decodeCmd 0b00000000 = .ok .getst := by decide
theorem test_decode_setst_none : decodeCmd 0b01000000 = .ok (.setst 0b000) := by decide
theorem test_decode_setst_led2 : decodeCmd 0b01000100 = .ok (.setst 0b100) := by decide
theorem test_decode_run : decodeCmd 0b10000000 = .ok .run := by decide
theorem test_decode_rejects_getst_operand : decodeCmd 0b00000111 = .error .getstOperand := by decide
theorem test_decode_rejects_rsv : decodeCmd 0b01001000 = .error .reservedBits := by decide
theorem test_decode_rejects_run_operand : decodeCmd 0b10000001 = .error .runOperand := by decide
theorem test_decode_rejects_op11 : decodeCmd 0b11000000 = .error .reservedOp := by decide
theorem test_decode_lines :
    decode (.event .rst) = .ok .reset ∧ decode (.event .t0clkEn) = .ok .t0clk ∧
      decode (.event .t1clkEn) = .ok .t1clk ∧ decode (.event .tickpend) = .ok .svc := by decide
theorem test_table_word : decodeTableWord 8 0x42 = some (.setst 0b010) ∧ decodeTableWord 8 0x01 = none := by decide

/-! ### Single steps (95_test_vectors.md) -/

/-- One field of what an operation answers, where it answers a next state. -/
def after {α : Type} (o : Host.Outcome State Fault Refusal) (f : State → α) : Option α :=
  match o with
  | .next s => some (f s)
  | _ => none

def resetT : State := State.resetOf cfgT

/-- The end of tick 3 of V-F3: all rising, `DUTY = (2, 3, 1)`, `SDCNT = (1, -, 3)`; a tick raised, and a compare latch
one tick behind. -/
def midT : State :=
  { resetT with
    duty := ⟨2, 3, 1⟩, ccvb := ⟨2, 3, 1⟩, ccv := ⟨1, 2, 1⟩, dir := Tri.all .rising, mask := 0b111
    sdcnt0 := 1, sdcnt2 := 3, run := true, tickpend := true, cnt0 := 4, cnt1 := 1 }

/-- V-H2: the mask is read back. -/
theorem test_getst : after (exec .getst { resetT with mask := 0b101 }) (fun t => (t.rsp, t.rspStatus)) = some (5, .ok) := by
  decide
/-- V-E3 and V-H2: bit 0 is LED0, and no duty moves. -/
theorem test_setst : after (exec (.setst 0b001) resetT) (fun t => (t.dir, t.mask)) =
    some (⟨.rising, .falling, .falling⟩, 0b001) := by decide
theorem test_setst_leaves_duty : after (exec (.setst 0b000) midT) (fun t => t.duty) = some ⟨2, 3, 1⟩ := by decide
/-- V-H4. -/
theorem test_run : after (exec .run resetT) (fun t => (t.run, t.cnt1)) = some (true, 0) := by decide
/-- V-T2: the wrap latches the buffers. -/
theorem test_t0clk_wrap : after (exec .t0clk { resetT with cnt0 := 4, ccvb := ⟨1, 3, 0⟩, ccv := ⟨0, 2, 0⟩ })
    (fun t => (t.cnt0, t.ccv)) = some (0, ⟨1, 3, 0⟩) := by decide
/-- V-T1. -/
theorem test_t0clk_count : after (exec .t0clk { resetT with cnt0 := 2, ccvb := ⟨1, 3, 0⟩, ccv := ⟨0, 2, 0⟩ })
    (fun t => (t.cnt0, t.ccv)) = some (3, ⟨0, 2, 0⟩) := by decide
/-- V-T4 and V-T5: held while disabled; the wrap raises the tick. -/
theorem test_t1clk_held : after (exec .t1clk resetT) (fun t => (t.cnt1, t.tickpend)) = some (0, false) := by decide
theorem test_t1clk_wrap : after (exec .t1clk { resetT with run := true, cnt1 := 1 }) (fun t => (t.cnt1, t.tickpend)) =
    some (0, true) := by decide
/-- V-F3, tick 4: channel 1 steps, the gate of channel 0 is shut, channel 2 is at its bound. -/
theorem test_svc : after (exec .svc midT) (fun t => (t.duty, t.sdcnt0, t.sdcnt2)) = some (⟨2, 4, 1⟩, 2, 1) := by decide
/-- V-H6: falling from the same state, channels 1 and 2 step down and push. -/
theorem test_svc_falling : after (exec .svc { midT with dir := Tri.all .falling, mask := 0 }) (fun t => (t.duty, t.ccvb)) =
    some (⟨2, 2, 0⟩, ⟨2, 2, 0⟩) := by decide
/-- V-R1. -/
theorem test_reset : after (exec .reset midT) (fun t => (t.duty, t.sdcnt2, t.run)) = some (⟨0, 0, 0⟩, 3, false) := by decide
/-- V-E13: a reserved word is answered with REJECT, and RUN is not set. -/
theorem test_reserved_word : after (step (resetT.withFetchWord 8 0x81)) (fun t => (t.rspStatus, t.run)) =
    some (.reject, false) := by decide
/-- V-T8: the largest duty is inactive for one count. -/
theorem test_out : (State.out { resetT with ccv := ⟨0, 4, 0⟩, cnt0 := 3 } .c1,
    State.out { resetT with ccv := ⟨0, 4, 0⟩, cnt0 := 4 } .c1) = (true, false) := by decide
/-- V-X1: the command, then the tick, then SVC, all in one cycle. -/
theorem test_cycle_order :
    after (repeatOp step 3 { resetT with run := true, cnt1 := 1, inputs := [{ Cycle.command 0x42 with t1clkEn := true }] })
      (fun t => (t.duty, t.tickpend)) = some (⟨0, 1, 0⟩, false) := by decide

/-- V-S1: the trace of Scenario A, with its RUN. -/
theorem test_scenarioA_trace : bootTrace [.setLedsPwm 0b010, .afterTicks 1, .getLedsPwm] =
    [(.op .reset, 1), (.op .run, 1), (.op (.setst 0b010), 1), (.tick, 1), (.op .getst, 1)] := by decide
/-- V-S1: Scenario A from reset. -/
theorem test_scenarioA : after (performTrace (bootTrace [.setLedsPwm 0b010, .afterTicks 1, .getLedsPwm]) resetT)
    (fun t => (t.duty, t.rsp)) = some (⟨0, 1, 0⟩, 0x02) := by decide

/-! ### Witnesses: states with the invariants -/

theorem inv_resetT : resetT.Inv := by
  constructor <;> first | decide | (intro c; cases c <;> decide) | exact fun _ => ⟨rfl, rfl, fun c => by cases c <;> rfl⟩

theorem inv_midT : midT.Inv := by
  constructor <;> first | decide | (intro c; cases c <;> decide)

/-- Ready to tick: the tick timer enabled, no tick pending. -/
def readyS : State := { State.resetOf cfgS with run := true, dir := Tri.all .rising, mask := 0b111 }

theorem inv_readyS : readyS.Inv := by
  constructor <;> first | decide | (intro c; cases c <;> decide)

/-! ### Witnesses: what meets the hypotheses of each statement -/

theorem witness_ReservedWordsAreRejected : decodeCmd 0x81 = .error .runOperand := by decide

theorem witness_SetstIsIdempotent : ∀ c, midT.dir.get c = maskDir midT.mask c := inv_midT.dir_mask

theorem witness_RunEnablesTheTickTimer :
    (∃ t, exec .reset midT = .next t ∧ midT.run = true ∧ t.run = false) ∧ resetT.run = false :=
  ⟨⟨_, rfl, rfl, rfl⟩, rfl⟩

theorem witness_GetstReturnsTheLastMaskSet :
    (∀ i ∈ [Instr.svc, .t0clk, .run], i ≠ .reset ∧ ∀ m', i ≠ .setst m') ∧
      ∃ t, runOps [.setst 0b010, .svc, .t0clk, .run] midT = .next t :=
  ⟨by simp, _, rfl⟩

theorem witness_PwmTimerCountsAndWraps :
    midT.cnt0 = midT.cfg.params.top0 ∧ resetT.cnt0 ≠ resetT.cfg.params.top0 ∧ midT.cnt0 ≤ midT.cfg.params.top0 := by decide

theorem witness_TickTimerCountsAndRaisesTheTick :
    resetT.run = false ∧ (midT.run = true ∧ midT.cnt1 = midT.cfg.params.top1) ∧
      ({ midT with cnt1 := 0 }.run = true ∧ { midT with cnt1 := 0 }.cnt1 ≠ midT.cfg.params.top1) := by decide

theorem witness_OverrunMergesTicks :
    midT.run = true ∧ midT.cnt1 ≤ midT.cfg.params.top1 ∧ ∃ t, exec .svc { midT with tickpend := true } = .next t :=
  ⟨rfl, by decide, _, rfl⟩

theorem witness_PeriodLatchesExactlyOnce :
    midT.cnt0 ≤ midT.cfg.params.top0 ∧ resetT.cnt0 ≤ resetT.cfg.params.top0 := by decide

theorem witness_TickIsOneUpdate :
    readyS.Inv ∧ readyS.run = true ∧ readyS.tickpend = false ∧ readyS.cnt1 ≤ readyS.cfg.params.top1 ∧
      (resetT.run = false ∨ resetT.tickpend = true) ∧ (midT.run = false ∨ midT.tickpend = true) :=
  ⟨inv_readyS, by decide⟩

theorem witness_CompareInEffectChangesOnlyAtTheBoundary :
    (∃ t, exec .t0clk midT = .next t ∧ t.ccv ≠ midT.ccv) ∧ ∃ t, exec .reset midT = .next t ∧ t.ccv ≠ midT.ccv :=
  ⟨⟨_, rfl, by decide⟩, _, rfl, by decide⟩

theorem witness_OutputIsActiveForDutyCounts :
    { resetT with ccv := ⟨0, 4, 0⟩ }.ccv.get .c1 ≤ resetT.cfg.params.top0 ∧
      resetT.ccv.get .c0 ≤ resetT.cfg.params.top0 := by decide

theorem witness_OutputAtTheExtremes :
    resetT.ccv.get .c0 = 0 ∧ midT.Inv ∧ midT.cnt0 = midT.cfg.params.top0 := ⟨rfl, inv_midT, rfl⟩

theorem witness_OnePeriodShowsTheDuty : midT.Inv := inv_midT

theorem witness_GateOpensAtTheDivisor :
    (∃ t, exec .svc midT = .next t) ∧ midT.gate .c0 = false ∧ midT.gate .c2 = true := ⟨⟨_, rfl⟩, by decide⟩

theorem witness_SlowdownCountersAdvanceOnEverySvc :
    midT.tickpend = true ∧ (∀ c, midT.duty.get c ≤ maxDuty midT.cfg c) ∧ ∃ t, exec .svc midT = .next t :=
  ⟨rfl, inv_midT.duty_le, _, rfl⟩

theorem witness_SetDutyWritesOneBufferWord :
    4 ≤ resetT.cfg.params.top0 ∧ Ch.c0 ≠ Ch.c1 ∧ resetT.cfg.params.top0 < 5 := by decide

theorem witness_StepMovesOneUnitOrNothing :
    midT.duty.get .c1 ≤ maxDuty midT.cfg .c1 ∧ midT.duty.get .c2 = maxDuty midT.cfg .c2 ∧
      (midT.dir.get .c1 = .rising ∧ midT.duty.get .c1 < maxDuty midT.cfg .c1) ∧
      ({ midT with dir := Tri.all .falling }.dir.get .c1 = .falling ∧ 0 < midT.duty.get .c1) ∧
      (resetT.dir.get .c0 = .falling ∧ ¬ 0 < resetT.duty.get .c0) := by decide

theorem witness_SvcIsThePerTickUpdate :
    (midT.tickpend = true ∧ ∀ c, midT.duty.get c ≤ maxDuty midT.cfg c) ∧ resetT.tickpend = false :=
  ⟨⟨rfl, inv_midT.duty_le⟩, rfl⟩

theorem witness_DutyMovesByAtMostOne :
    (∃ t, exec .svc midT = .next t) ∧ Instr.svc ≠ .reset ∧ (∃ t, exec .t0clk midT = .next t) ∧ Instr.t0clk ≠ .svc :=
  ⟨⟨_, rfl⟩, by decide, ⟨_, rfl⟩, by decide⟩

theorem witness_PushExactlyWhenTheDutyChanged :
    ∃ t, exec .svc midT = .next t ∧ t.duty.get .c0 = midT.duty.get .c0 ∧ t.duty.get .c1 = midT.duty.get .c1 + 1 :=
  ⟨_, rfl, by decide, by decide⟩

theorem witness_ChannelsAreIndependent :
    (∃ t, exec .svc midT = .next t) ∧ (∃ t, exec .svc { midT with mask := 0, sdcnt0 := 2 } = .next t) ∧
      midT.sdcnt .c2 = State.sdcnt { midT with mask := 0, sdcnt0 := 2 } .c2 :=
  ⟨⟨_, rfl⟩, ⟨_, rfl⟩, rfl⟩

theorem witness_GateScheduleSinceReset :
    Instr.reset ∉ [Instr.run, .t1clk, .svc] ∧ (∃ t, runOps [.reset, .run, .t1clk, .svc] readyS = .next t ∧
      ∃ u, runOps [.t1clk, .svc] t = .next u) ∧ [Instr.t1clk, .svc].count .svc = divOf readyS.cfg .c0 :=
  ⟨by decide, ⟨_, rfl, _, rfl⟩, by decide⟩

theorem witness_RateOfTheGate :
    (1 ≤ readyS.sdcnt .c0 ∧ readyS.sdcnt .c0 ≤ divOf readyS.cfg .c0 ∧ Instr.reset ∉ [Instr.t1clk, .svc] ∧
      divOf readyS.cfg .c0 ∣ [Instr.t1clk, .svc].count .svc) ∧
    (∀ i ∈ [Instr.t1clk, .svc], i ≠ .reset ∧ ∀ m, i ≠ .setst m) ∧ (∃ t, runOps [.t1clk, .svc] readyS = .next t) ∧
    (readyS.dir.get .c0 = .rising ∧
      readyS.duty.get .c0 + openGates .c0 [.t1clk, .svc] readyS ≤ maxDuty readyS.cfg .c0) ∧
    ({ midT with dir := Tri.all .falling }.dir.get .c1 = .falling ∧
      openGates .c1 [.svc] { midT with dir := Tri.all .falling } ≤ midT.duty.get .c1 ∧
      ∃ t, runOps [.svc] { midT with dir := Tri.all .falling } = .next t) :=
  ⟨by decide, by simp, ⟨_, rfl⟩, by decide, by decide, by decide, _, rfl⟩

theorem witness_FadeInClosedForm :
    readyS.Inv ∧ (∀ i ∈ [Instr.t1clk, .svc], i ≠ .reset ∧ ∀ m, i ≠ .setst m) ∧
      (∃ t, runOps [.t1clk, .svc] readyS = .next t) ∧ readyS.dir.get .c0 = .rising ∧
      (resetT.Inv ∧ runOps [] resetT = .next resetT ∧ resetT.dir.get .c0 = .falling) :=
  ⟨inv_readyS, by simp, ⟨_, rfl⟩, rfl, inv_resetT, rfl, rfl⟩

theorem witness_FadeConverges :
    readyS.Inv ∧ Instr.reset ∉ [Instr.t1clk, .setst 0b001, .svc] ∧
      (∀ m, Instr.setst m ∈ [Instr.t1clk, .setst 0b001, .svc] → maskDir m .c0 = readyS.dir.get .c0) ∧
      (∃ t, runOps [.t1clk, .setst 0b001, .svc] readyS = .next t) ∧
      maxDuty readyS.cfg .c0 * divOf readyS.cfg .c0 ≤ [Instr.t1clk, .setst 0b001, .svc].count .svc := by
  refine ⟨inv_readyS, by decide, fun m hm => ?_, ⟨_, rfl⟩, by decide⟩
  have : m = 0b001 := by simpa using hm
  subst this; decide

theorem witness_TicksReachTheBound :
    readyS.Inv ∧ readyS.run = true ∧ readyS.tickpend = false ∧ maxDuty readyS.cfg .c0 * divOf readyS.cfg .c0 ≤ 1 :=
  ⟨inv_readyS, by decide⟩

theorem witness_FullRampLength :
    readyS.Inv ∧ readyS.dir.get .c0 = .rising ∧ readyS.duty.get .c0 = 0 ∧ 0 < maxDuty readyS.cfg .c0 ∧
      (∀ i ∈ [Instr.t1clk, .svc], i ≠ .reset ∧ ∀ m, i ≠ .setst m) ∧
      (∃ t, runOps [.t1clk, .svc] readyS = .next t ∧ t.duty.get .c0 = maxDuty readyS.cfg .c0) ∧
      maxDuty readyS.cfg .c0 * divOf readyS.cfg .c0 ≤ [Instr.t1clk, .svc].count .svc :=
  ⟨inv_readyS, rfl, rfl, by decide, by simp, ⟨_, rfl, by decide⟩, by decide⟩

theorem witness_ResetStateHoldsTheResetValues : 0 < cfgT.params.top0 := by decide

theorem witness_ResetRestoresTheResetValues :
    { midT with inputs := [⟨true, true, 0x80, true, true, true⟩] }.ports.rst = true := rfl

theorem witness_NothingFadesBeforeRun :
    Instr.run ∉ [Instr.setst 0b111, .t1clk, .t0clk] ∧ ∃ t, runOps [.reset, .setst 0b111, .t1clk, .t0clk] midT = .next t :=
  ⟨by decide, _, rfl⟩

theorem witness_IllFormedConfigurationsAreRefused : paramsT.wf ∧ ¬ { paramsT with sdinit0 := 3 }.wf := by decide

theorem witness_StepKeepsTheInvariants : midT.Inv ∧ ∃ t, step midT = .next t := ⟨inv_midT, _, rfl⟩

theorem witness_ReachableStatesHaveTheInvariants :
    ∃ t, repeatOp step 2 { State.resetOf cfgT with inputs := [Cycle.command 0x80] } = .next t := ⟨_, rfl⟩

theorem witness_NoStepStops : midT.Inv := inv_midT

theorem witness_RegistersFitTheirWidth : midT.Inv := inv_midT

theorem witness_EachFieldHasItsWriters :
    (∃ t, exec .svc midT = .next t ∧ t.duty ≠ midT.duty ∧ t.tickpend ≠ midT.tickpend) ∧ Instr.svc ≠ .reset :=
  ⟨⟨_, rfl, by decide, by decide⟩, by decide⟩

theorem witness_ParametersNeverChange : ∃ t, step midT = .next t := ⟨_, rfl⟩

theorem witness_StepPerformsTheDueOperation :
    (resetT.withFetchWord 8 0x42).due = some (.cmd 0x42) ∧ decode (.cmd 0x42) = .ok (.setst 0b010) ∧
      (resetT.withFetchWord 8 0x81).due = some (.cmd 0x81) ∧ decode (.cmd 0x81) = .error .runOperand ∧
      resetT.due = none := by decide

theorem witness_PresentedWordRunsNext : decodeTableWord 8 0x42 = some (.setst 0b010) := by decide

theorem witness_CycleFollowsTheFixedOrder :
    { resetT with inputs := [⟨true, true, 0x80, true, true, true⟩] }.inputs = [⟨true, true, 0x80, true, true, true⟩] ∧
      (⟨true, true, 0x80, true, true, true⟩ : Cycle).engineEn = true ∧
      (⟨true, true, 0x80, true, true, true⟩ : Cycle).rst = true ∧
      (⟨false, true, 0x80, true, true, true⟩ : Cycle).rst = false := by decide

theorem witness_ClockedRunsLoseNoTick :
    midT.Clocked ∧ midT.TickFirst ∧ midT.tickpend = true ∧ (∃ t, step midT = .next t) ∧
      (let s : State := { resetT with inputs := [{ Cycle.idle with t1clkEn := true }] }
       s.TickFirst ∧ s.due = some (.event .t1clkEn)) :=
  ⟨by simp [State.Clocked, midT, resetT, State.resetOf], fun _ => by decide, rfl, ⟨_, rfl⟩,
    fun h => absurd h (by decide), by decide⟩

theorem witness_EveryRunIsAnInterleaving :
    ∃ t, repeatOp step 3 { resetT with inputs := [Cycle.command 0x42, Cycle.command 0x81] } = .next t ∧
      stepSignals 3 { resetT with inputs := [Cycle.command 0x42, Cycle.command 0x81] } = [.cmd 0x42, .cmd 0x81] :=
  ⟨_, rfl, by decide⟩

theorem witness_HostProgramsTranslateWordForWord :
    programTrace [.setLedsPwm 0b010, .afterTicks 2] = [(.op .run, 1), (.op (.setst 0b010), 1)] ++ (.tick, 2) :: [] := by
  decide

theorem witness_HostProgramsRunToTheirEnd : readyS.Inv ∧ readyS.tickpend = false ∧ resetT.Inv ∧ resetT.tickpend = false :=
  ⟨inv_readyS, rfl, inv_resetT, rfl⟩

theorem witness_EveryInterleavingIsARun : ∃ t, runOps [.svc, .t0clk, .getst] midT = .next t := ⟨_, rfl⟩

end Sys2Proof.Tests
end

section
/-! The scope rules (00_scope.md): runs and interleavings (R3), widths (R4), duty bounds (R8), configurations (R11). -/

namespace Sys2Proof

/-! ### Cycles that ask for one signal (R3) -/

/-- No line is raised and the engine has no turn; the word `w` stands on `cmd` without being presented. -/
def Cycle.quiet (w : Word8) : Cycle := ⟨false, false, w, false, false, false⟩

/-- The cycle that asks for `sig` and gives the engine no turn beside it. An SVC due after the signal would otherwise be
performed in the same cycle. -/
def Cycle.solo (sig : Signal) : Cycle := { Cycle.ofSignal sig with engineEn := sig = .event .tickpend }

theorem decode_encode (i : Instr) : decode (encode i) = .ok i := by
  cases i with
  | setst m => revert m; decide
  | getst | run => decide
  | t0clk | t1clk | svc | reset => rfl

namespace Machine

theorem performAll_append (a b : List Signal) (s : State) :
    performAll (a ++ b) s = andThen (performAll a s) (performAll b) := by
  induction a generalizing s with
  | nil => rfl
  | cons sig sigs ih => simp only [List.cons_append, performAll_cons]; cases perform sig s <;> simp [ih]

/-- Performing the signals of operations is performing the operations. -/
theorem performAll_map_encode (ops : List Instr) (s : State) : performAll (ops.map encode) s = runOps ops s := by
  induction ops generalizing s with
  | nil => rfl
  | cons i is ih =>
    rw [List.map_cons, performAll_cons, perform_of_ok (decode_encode i), runOps, funext ih]

/-- SVC's signal is performed only where a tick is pending. -/
theorem tickpend_of_perform_svc {sig : Signal} {s t : State} (h : perform sig s = .next t)
    (hsig : sig = .event .tickpend) : s.tickpend = true := by
  subst hsig
  obtain ⟨htick, -, -⟩ := execSvc_eq_next.mp h
  exact htick

/-- A quiet cycle performs nothing and ends. -/
theorem due_quiet (s : State) (w : Word8) (rest : List Cycle) :
    State.due { s with inputs := Cycle.quiet w :: rest } = none := rfl

theorem step_quiet (s : State) (w : Word8) (rest : List Cycle) :
    step { s with inputs := Cycle.quiet w :: rest } = .next { s with inputs := rest } :=
  step_of_idle (due_quiet s w rest)

/-- In its own cycle a signal is the one due; SVC's needs a pending tick. -/
theorem due_solo {s : State} {sig : Signal} (h : sig = .event .tickpend → s.tickpend = true) (rest : List Cycle) :
    State.due { s with inputs := Cycle.solo sig :: rest } = some sig := by
  cases sig with
  | cmd w => rfl
  | event l =>
    cases l with
    | rst | t0clkEn | t1clkEn => rfl
    | tickpend =>
      have ht : s.tickpend = true := h rfl
      simp [State.due, State.ports, Cycle.solo, Cycle.ofSignal, Cycle.idle, ht]

/-- Taken out of its own cycle, a signal ends the cycle or leaves a quiet one. -/
theorem consume_solo (s : State) (sig : Signal) (rest : List Cycle) :
    State.consume { s with inputs := Cycle.solo sig :: rest } sig = { s with inputs := rest } ∨
      ∃ w, State.consume { s with inputs := Cycle.solo sig :: rest } sig =
        { s with inputs := Cycle.quiet w :: rest } := by
  cases sig with
  | cmd w => exact .inr ⟨w, rfl⟩
  | event l =>
    cases l with
    | rst | tickpend => exact .inl rfl
    | t0clkEn | t1clkEn => exact .inr ⟨0, rfl⟩

theorem perform_of_withInputs {sig : Signal} {s t : State} (h : perform sig s = .next t) (l : List Cycle) :
    perform sig { s with inputs := l } = .next { t with inputs := l } := by
  rw [perform_withInputs, h, andThen_next]

/-! ### Signals and runs (R3) -/

/-- One step that goes on, as a run. -/
theorem repeatOp_step_succ {s t : State} (h : step s = .next t) (n : Nat) :
    repeatOp step (n + 1) s = repeatOp step n t := by
  rw [repeatOp, h, andThen_next]

/-- A signal that can be performed is what its own cycle performs, and nothing else. -/
theorem run_solo {sig : Signal} {s t : State} (h : perform sig s = .next t) (rest : List Cycle) :
    ∃ n, stepSignals n { s with inputs := Cycle.solo sig :: rest } = [sig] ∧
      repeatOp step n { s with inputs := Cycle.solo sig :: rest } = .next { t with inputs := rest } := by
  have hdue := due_solo (tickpend_of_perform_svc h) rest
  have hstep := step_of_due hdue
  rcases consume_solo s sig rest with hc | ⟨w, hc⟩ <;> rw [hc, perform_of_withInputs h] at hstep
  · refine ⟨1, ?_, by rw [repeatOp_step_succ hstep]; rfl⟩
    rw [stepSignals_of_next hstep, hdue]; rfl
  · have hend := step_quiet t w rest
    refine ⟨2, ?_, by rw [repeatOp_step_succ hstep, repeatOp_step_succ hend]; rfl⟩
    rw [stepSignals_of_next hstep, stepSignals_of_next hend, hdue, due_quiet]; rfl

/-- Signals that can be performed one after another are what their own cycles perform, one after another. -/
theorem run_map_solo {sigs : List Signal} {s t : State} (h : performAll sigs s = .next t) :
    ∃ n, stepSignals n { s with inputs := sigs.map Cycle.solo } = sigs ∧
      repeatOp step n { s with inputs := sigs.map Cycle.solo } = .next { t with inputs := [] } := by
  induction sigs generalizing s with
  | nil => cases h; exact ⟨0, rfl, rfl⟩
  | cons sig sigs ih =>
    obtain ⟨u, hu, ht⟩ := andThen_eq_next.mp h
    obtain ⟨m, hmSignals, hmRun⟩ := run_solo hu (sigs.map Cycle.solo)
    obtain ⟨n, hnSignals, hnRun⟩ := ih ht
    refine ⟨m + n, ?_, ?_⟩
    · rw [List.map_cons, stepSignals_add hmRun, hmSignals, hnSignals]; rfl
    · rw [List.map_cons, repeatOp_add, hmRun, andThen_next, hnRun]

/-- A step performs the signal due in it, if any, and otherwise touches only the input lines. -/
theorem performAll_due_of_step {s t : State} (h : step s = .next t) :
    performAll s.due.toList { s with inputs := [] } = .next { t with inputs := [] } := by
  cases hd : s.due with
  | none => rw [step_of_idle hd] at h; cases h; rfl
  | some sig =>
    rw [step_of_due hd] at h
    have hp := perform_of_withInputs h []
    rw [consume_eq] at hp
    rw [Option.toList_some, performAll_cons, hp]; rfl

/-- Settles O57: each operation gets a cycle of its own. -/
theorem everyInterleavingIsARun : Obligations.EveryInterleavingIsARun := by
  intro ops s t h
  rw [← performAll_map_encode] at h
  exact ⟨_, run_map_solo h⟩

/-- Settles O58, by induction on the number of steps. -/
theorem everyRunIsAnInterleaving : Obligations.EveryRunIsAnInterleaving := by
  intro n
  induction n with
  | zero => intro s t h; cases h; rfl
  | succ n ih =>
    intro s t h
    obtain ⟨u, hu, ht⟩ := andThen_eq_next.mp h
    rw [stepSignals_of_next hu, performAll_append, performAll_due_of_step hu, andThen_next, ih u t ht]

/-! ### Widths (R4) -/

theorem lt_width_of_le_top0 (cfg : Config) {n : Nat} (h : n ≤ cfg.params.top0) : n < 2 ^ cfg.params.w := by
  obtain ⟨-, -, -, -, htop0, -⟩ := cfg.ok
  exact Nat.lt_of_le_sub_one (Nat.two_pow_pos _) (h.trans htop0)

theorem lt_width_of_le_top1 (cfg : Config) {n : Nat} (h : n ≤ cfg.params.top1) : n < 2 ^ cfg.params.w := by
  obtain ⟨-, -, -, -, -, htop1⟩ := cfg.ok
  exact Nat.lt_of_le_sub_one (Nat.two_pow_pos _) (h.trans htop1)

theorem lt_width_of_le_maxDuty (cfg : Config) (c : Ch) {n : Nat} (h : n ≤ maxDuty cfg c) : n < 2 ^ cfg.params.w :=
  lt_width_of_le_top0 cfg (h.trans (maxDuty_le_top0 cfg c))

/-- The PWM timer never counts past its top (42_timer_events.md R98). -/
theorem countPwm_cnt0_le {s : State} (h : s.cnt0 ≤ s.cfg.params.top0) : s.countPwm.cnt0 ≤ s.cfg.params.top0 := by
  rcases countPwm_cases s with ⟨-, e⟩ | ⟨hne, e⟩ <;> rw [e]
  · exact Nat.zero_le _
  · exact Nat.lt_of_le_of_ne h hne

/-- The tick timer never counts past its top (42_timer_events.md R101). -/
theorem countTick_cnt1_le {s : State} (h : s.cnt1 ≤ s.cfg.params.top1) : s.countTick.cnt1 ≤ s.cfg.params.top1 := by
  rcases countTick_cases s with ⟨-, e⟩ | ⟨-, -, e⟩ | ⟨-, hne, e⟩ <;> rw [e]
  · exact h
  · exact Nat.zero_le _
  · exact Nat.lt_of_le_of_ne h hne

/-- Settles O49: every register is bounded by a top value, which fits by R11. -/
theorem registersFitTheirWidth : Obligations.RegistersFitTheirWidth := by
  intro s hs
  refine ⟨fun c => ⟨?_, ?_, ?_⟩, ?_, ?_, ?_, ?_⟩
  · exact lt_width_of_le_maxDuty _ c (hs.duty_le c)
  · exact lt_width_of_le_maxDuty _ c (hs.ccvb_duty c ▸ hs.duty_le c)
  · exact lt_width_of_le_maxDuty _ c (hs.ccv_le c)
  · exact lt_width_of_le_top0 _ hs.cnt0_le
  · exact lt_width_of_le_top1 _ hs.cnt1_le
  · exact lt_width_of_le_top0 _ (countPwm_cnt0_le hs.cnt0_le)
  · exact lt_width_of_le_top1 _ (countTick_cnt1_le hs.cnt1_le)

/-! ### Duty bounds and configurations (R8, R11) -/

/-- `MAXDUTY[c]` is the floor of `TOP0 / DIV[c]`, with the convention `DIV[1] = 1` (00_scope.md R7, R8). -/
theorem maxDuty_eq_iff (cfg : Config) (c : Ch) (q : Nat) :
    maxDuty cfg c = q ↔ q * divOf cfg c ≤ cfg.params.top0 ∧ cfg.params.top0 < (q + 1) * divOf cfg c := by
  have hpos := divOf_pos cfg c
  rw [maxDuty_eq_div, Nat.div_eq_iff hpos, Nat.add_one_mul]
  omega

/-- Settles O25. -/
theorem maxDutyIsTheFloorQuotient : Obligations.MaxDutyIsTheFloorQuotient := fun cfg =>
  ⟨rfl, maxDuty_eq_iff cfg .c0, maxDuty_eq_iff cfg .c2, maxDuty_le_top0 cfg⟩

theorem powerOn_of_wf {p : Params} (h : p.wf) : State.powerOn p = .next (State.resetOf ⟨p, h⟩) := dif_pos h

theorem powerOn_of_not_wf {p : Params} (h : ¬ p.wf) : State.powerOn p = .refused .illFormedConfig := dif_neg h

/-- Settles O44. -/
theorem illFormedConfigurationsAreRefused : Obligations.IllFormedConfigurationsAreRefused := by
  refine fun p => ⟨⟨fun hrefused hwf => ?_, powerOn_of_not_wf⟩, powerOn_of_wf⟩
  rw [powerOn_of_wf hwf] at hrefused
  cases hrefused

/-! ### One step (R3, 60_exceptions.md R110) -/

/-- Settles O52. -/
theorem stepPerformsTheDueOperation : Obligations.StepPerformsTheDueOperation := by
  refine ⟨fun s sig i hdue hdec => ?_, fun s sig r hdue hdec => ?_, fun s hdue => ?_, fun s sig => ?_⟩
  · rw [step_of_due hdue, perform_of_ok hdec]
  · rw [step_of_due hdue, perform_of_error hdec]; rfl
  · rw [step_of_idle hdue, endCycle_eq]
  · rw [consume_eq]

end Machine

end Sys2Proof
end

section
/-! The state rules (10_state.md): parameters (R29), writers of each field (R32), reset values (R33) and the invariants
of the reachable states (R34). -/

namespace Sys2Proof.Machine

/-! ### What keeps the invariants (R34) -/

/-- The invariants do not read the input lines. -/
theorem State.Inv.withInputs {s : State} (hs : s.Inv) (l : List Cycle) : State.Inv { s with inputs := l } := { hs with }

/-- The invariants do not read the response ports. -/
theorem State.Inv.respond {s : State} (hs : s.Inv) (st : Status) (d : Word8) : (s.respond st d).Inv := { hs with }

theorem State.Inv.cmdReject {s : State} (hs : s.Inv) : s.cmdReject.Inv := hs.respond .reject 0

theorem State.Inv.consume {s : State} (hs : s.Inv) (sig : Signal) : (s.consume sig).Inv := by
  rw [consume_eq]; exact hs.withInputs _

theorem State.Inv.setTargets {s : State} (hs : s.Inv) (m : Mask) : (s.setTargets m).Inv :=
  { hs with dir_mask := maskDirs_get m }

/-- With the tick timer enabled, clause 7 asks nothing. -/
theorem State.Inv.enableTicks {s : State} (hs : s.Inv) : s.enableTicks.Inv := { hs with idle := nofun }

/-- The latch brings the duties, through their buffers, to the compare values in effect (clauses 4 and 5). -/
theorem State.Inv.countPwm {s : State} (hs : s.Inv) : s.countPwm.Inv := by
  have hcnt0 := countPwm_cnt0_le hs.cnt0_le
  rcases countPwm_cases s with ⟨-, e⟩ | ⟨-, e⟩ <;> rw [e] at hcnt0 ⊢
  · exact { hs with cnt0_le := hcnt0, ccv_le := fun c => (hs.ccvb_duty c).trans_le (hs.duty_le c) }
  · exact { hs with cnt0_le := hcnt0 }

/-- The tick timer moves only while it is enabled, where clause 7 asks nothing. -/
theorem State.Inv.countTick {s : State} (hs : s.Inv) : s.countTick.Inv := by
  have hcnt1 := countTick_cnt1_le hs.cnt1_le
  rcases countTick_cases s with ⟨-, e⟩ | ⟨hrun, -, e⟩ | ⟨hrun, -, e⟩ <;> rw [e] at hcnt1 ⊢
  · exact hs
  · exact { hs with cnt1_le := hcnt1, idle := by simp [hrun] }
  · exact { hs with cnt1_le := hcnt1, idle := by simp [hrun] }

/-- A step moves a duty upward only below its bound (41_fade_engine.md R93). -/
theorem dutyAfter_le_maxDuty {s : State} {c : Ch} (h : s.duty.get c ≤ maxDuty s.cfg c) :
    s.dutyAfter c ≤ maxDuty s.cfg c := by
  unfold State.dutyAfter
  split
  · cases hv : s.stepTarget c with
    | none => exact h
    | some v =>
      rcases stepTarget_eq_some hv with ⟨-, hlt, rfl⟩ | ⟨-, -, hdown⟩
      · exact hlt
      · rw [Option.getD_some]; omega
  · exact h

/-- A push carries the new duty, so the buffer goes on agreeing with it (10_state.md R21). -/
theorem ccvbAfter_eq_dutyAfter {s : State} {c : Ch} (h : s.ccvb.get c = s.duty.get c) :
    s.ccvbAfter c = s.dutyAfter c := by
  unfold State.ccvbAfter State.dutyAfter
  rw [h]

/-- A pending tick means that RUN was given, by clause 7. -/
theorem State.Inv.run_of_tickpend {s : State} (hs : s.Inv) (ht : s.tickpend = true) : s.run = true := by
  by_contra hrun
  obtain ⟨hclear, -, -⟩ := hs.idle (Bool.eq_false_of_not_eq_true hrun)
  exact absurd ht (by simp [hclear])

theorem State.Inv.afterSvc {s : State} (hs : s.Inv) (ht : s.tickpend = true) : s.afterSvc.Inv := by
  obtain ⟨hsd0, hsd0'⟩ := advanceCount_bounds (divOf_pos s.cfg .c0) hs.sdcnt0_le
  obtain ⟨hsd2, hsd2'⟩ := advanceCount_bounds (divOf_pos s.cfg .c2) hs.sdcnt2_le
  refine { hs with
    duty_le := fun c => ?_, ccvb_duty := fun c => ?_, idle := by simp [hs.run_of_tickpend ht]
    sdcnt0_pos := hsd0, sdcnt0_le := hsd0', sdcnt2_pos := hsd2, sdcnt2_le := hsd2' }
  · rw [afterSvc_duty]; exact dutyAfter_le_maxDuty (hs.duty_le c)
  · rw [afterSvc_ccvb, afterSvc_duty]; exact ccvbAfter_eq_dutyAfter (hs.ccvb_duty c)

/-! ### The reset state (R33) -/

@[simp] theorem maskDir_zero (c : Ch) : maskDir 0 c = .falling := by cases c <;> rfl

theorem resetOf_inv (cfg : Config) : (State.resetOf cfg).Inv := by
  obtain ⟨-, -, ⟨h0, h0'⟩, ⟨h2, h2'⟩, -, -⟩ := cfg.ok
  exact {
    duty_le := fun c => (Tri.get_all 0 c).trans_le (Nat.zero_le _)
    sdcnt0_pos := h0, sdcnt0_le := h0', sdcnt2_pos := h2, sdcnt2_le := h2'
    dir_mask := fun c => (Tri.get_all _ c).trans (maskDir_zero c).symm
    ccvb_duty := fun _ => rfl
    ccv_le := fun c => (Tri.get_all 0 c).trans_le (Nat.zero_le _)
    cnt0_le := Nat.zero_le _, cnt1_le := Nat.zero_le _
    idle := fun _ => ⟨rfl, rfl, Tri.get_all 0⟩ }

theorem resetFields_inv (s : State) : s.resetFields.Inv := (resetOf_inv s.cfg).withInputs s.inputs

/-- Settles O40. -/
theorem resetStateHoldsTheResetValues : Obligations.ResetStateHoldsTheResetValues := by
  refine ⟨fun cfg c => ?_, fun cfg => ⟨_, exec_t0clk _, fun htop => ?_⟩, Config.board, rfl⟩
  · exact ⟨Tri.get_all 0 c, Tri.get_all _ c, Tri.get_all 0 c, Tri.get_all 0 c, rfl, rfl, rfl, rfl, rfl, rfl, rfl⟩
  · rw [countPwm_count (Nat.ne_of_lt htop)]; rfl

/-- Settles O42. -/
theorem resetAndTheModelsOwnFields : Obligations.ResetAndTheModelsOwnFields := fun s =>
  ⟨_, exec_reset s, s.resetFields_cfg, s.resetFields_inputs, s.resetFields_rspStatus, s.resetFields_rsp⟩

/-- Settles O45. -/
theorem invariantsHoldAfterReset : Obligations.InvariantsHoldAfterReset := ⟨resetOf_inv, resetOf_inv Config.board⟩

/-! ### Steps and runs keep the invariants (R34) -/

theorem exec_keeps_inv {i : Instr} {s t : State} (hs : s.Inv) (h : exec i s = .next t) : t.Inv := by
  cases i with
  | getst => cases h; exact hs.respond _ _
  | setst m => cases h; exact (hs.setTargets m).respond _ _
  | run => cases h; exact hs.enableTicks.respond _ _
  | t0clk => cases h; exact hs.countPwm
  | t1clk => cases h; exact hs.countTick
  | svc => obtain ⟨ht, -, rfl⟩ := execSvc_eq_next.mp h; exact hs.afterSvc ht
  | reset => cases h; exact resetFields_inv s

/-- Settles O46: a step is an operation, `CmdReject` or the end of a cycle, and each keeps the invariants. -/
theorem stepKeepsTheInvariants : Obligations.StepKeepsTheInvariants := by
  intro s t hs h
  rcases step_cases h with ⟨sig, i, -, -, hexec⟩ | ⟨sig, r, -, -, rfl⟩ | ⟨-, rfl⟩
  · exact exec_keeps_inv (hs.consume sig) hexec
  · exact (hs.consume sig).cmdReject
  · exact hs.withInputs _

/-- A property that one performance keeps holds after any number of them. -/
theorem repeatOp_induction {P : State → Prop} {f : State → Host.Outcome State Fault Refusal}
    (hkeep : ∀ s t, P s → f s = .next t → P t) {n : Nat} {s t : State} (hs : P s) (h : repeatOp f n s = .next t) :
    P t := by
  induction n generalizing s with
  | zero => cases h; exact hs
  | succ n ih =>
    obtain ⟨u, hu, ht⟩ := andThen_eq_next.mp h
    exact ih (hkeep s u hs hu) ht

/-- Settles O47: the invariants hold at reset and every step keeps them. -/
theorem reachableStatesHaveTheInvariants : Obligations.ReachableStatesHaveTheInvariants := fun cfg inputs _ _ h =>
  repeatOp_induction stepKeepsTheInvariants ((resetOf_inv cfg).withInputs inputs) h

/-! ### Writers and parameters (R29, R32) -/

/-- Settles O50, operation by operation: an implication about a field the operation does not write has a false premise,
and one about a field it writes names the operation itself. -/
theorem eachFieldHasItsWriters : Obligations.EachFieldHasItsWriters := by
  intro i s t h hreset
  cases i with
  | getst => cases h; simp
  | setst m => cases h; simp
  | run => cases h; simp
  | t0clk => cases h; rcases countPwm_cases s with ⟨-, e⟩ | ⟨-, e⟩ <;> simp [e]
  | t1clk => cases h; rcases countTick_cases s with ⟨-, e⟩ | ⟨-, -, e⟩ | ⟨-, -, e⟩ <;> simp [e]
  | svc => obtain ⟨-, -, rfl⟩ := execSvc_eq_next.mp h; simp
  | reset => exact absurd rfl hreset

theorem consume_cfg (s : State) (sig : Signal) : (s.consume sig).cfg = s.cfg := by rw [consume_eq]

/-- Settles O51. -/
theorem parametersNeverChange : Obligations.ParametersNeverChange := by
  intro s t h
  rcases step_cases h with ⟨sig, i, -, -, hexec⟩ | ⟨sig, r, -, -, rfl⟩ | ⟨-, rfl⟩
  · exact (exec_keeps_environment hexec).left.trans (consume_cfg s sig)
  · exact consume_cfg s sig
  · exact s.endCycle_cfg

end Sys2Proof.Machine
end

section
/-! The memory rules (20_memory.md): the compare buffer and `SetDuty` (R43), and that no step from a state with the
invariants stops (R53). -/

namespace Sys2Proof.Machine

/-- Settles O28. -/
theorem setDutyWritesOneBufferWord : Obligations.SetDutyWritesOneBufferWord := fun s c v =>
  ⟨fun hv => ⟨s.memWrite c v, setDuty_of_le hv, memRead_memWrite_self s c v,
    fun _ hd => memRead_memWrite_other s v hd, rfl⟩, setDuty_of_gt⟩

/-! ### Where SVC is performed (R53, 41_fade_engine.md R80) -/

/-- No command word selects SVC (30_encoding.md R65). -/
theorem decodeCmd_ne_svc (w : Word8) : decodeCmd w ≠ .ok .svc := by
  unfold decodeCmd
  split_ifs <;> simp

/-- SVC has one signal, the pending tick. -/
theorem eq_tickpend_of_decode_svc {sig : Signal} (h : decode sig = .ok .svc) : sig = .event .tickpend := by
  cases sig with
  | cmd w => exact absurd h (decodeCmd_ne_svc w)
  | event l =>
    cases l with
    | rst | t0clkEn | t1clkEn => cases h
    | tickpend => rfl

/-- SVC is due only where a tick is pending: the four branches of R117 before it answer other signals. -/
theorem tickpend_of_due_svc {s : State} (h : s.due = some (.event .tickpend)) : s.tickpend = true := by
  unfold State.due at h
  split_ifs at h with _ _ _ _ hengine
  iterate 4 cases h
  exact (Bool.and_eq_true_iff.mp hengine).right

theorem consume_tickpend (s : State) (sig : Signal) : (s.consume sig).tickpend = s.tickpend := by rw [consume_eq]

/-! ### Every step goes on (R53, 60_exceptions.md R110) -/

/-- With the invariants an operation completes; SVC needs its tick, and the duty bounds put its pushes in range
(70_reset_and_hazards.md R145). -/
theorem exec_completes_of_inv {i : Instr} {s : State} (hs : s.Inv) (hsvc : i = .svc → s.tickpend = true) :
    ∃ t, exec i s = .next t := by
  by_cases hi : i = .svc
  · subst hi
    exact ⟨_, execSvc_of_duty_le (hsvc rfl) hs.duty_le⟩
  · exact exec_completes hi s

/-- What a signal selects completes likewise; a reserved word is answered. -/
theorem perform_completes_of_inv {sig : Signal} {s : State} (hs : s.Inv)
    (hsvc : sig = .event .tickpend → s.tickpend = true) : ∃ t, perform sig s = .next t := by
  cases hd : decode sig with
  | ok i =>
    rw [perform_of_ok hd]
    exact exec_completes_of_inv hs fun hi => hsvc (eq_tickpend_of_decode_svc (hi ▸ hd))
  | error r => exact ⟨_, perform_of_error hd s⟩

/-- Settles O48: the end of a cycle always goes on, and the signal due finds the tick it needs. -/
theorem noStepStops : Obligations.NoStepStops := by
  intro s hs
  unfold State.StepSafe
  cases hdue : s.due with
  | none => exact ⟨_, step_of_idle hdue⟩
  | some sig =>
    rw [step_of_due hdue]
    refine perform_completes_of_inv (hs.consume sig) fun hsig => ?_
    rw [consume_tickpend]
    exact tickpend_of_due_svc (hsig ▸ hdue)

end Sys2Proof.Machine
end

section
/-! The encoding rules (30_encoding.md): the decoder in the terms of R66 and its inverse (R60 to R66), signals presented
and performed (R57, R58, R65), and the pseudo-operations and host-level programs of a trace (R67 to R70). -/

namespace Sys2Proof

/-! ### The fields of a command word, as numbers (R58) -/

theorem opField_toNat (w : Word8) : (opField w).toNat = w.toNat / 64 := by
  have hw := w.isLt
  rw [opField, BitVec.extractLsb'_toNat, Nat.shiftRight_eq_div_pow]
  omega

theorem rsvField_toNat (w : Word8) : (rsvField w).toNat = w.toNat / 8 % 8 := by
  rw [rsvField, BitVec.extractLsb'_toNat, Nat.shiftRight_eq_div_pow]

theorem mField_toNat (w : Word8) : (mField w).toNat = w.toNat % 8 := by
  rw [mField, BitVec.extractLsb'_toNat, Nat.shiftRight_zero]

theorem mField_eq_ofNat (w : Word8) : mField w = BitVec.ofNat 3 (w.toNat % 8) := by
  rw [← mField_toNat, BitVec.ofNat_toNat, BitVec.setWidth_eq]

/-! ### The decoder and the encoder (R60 to R63, R66) -/

/-- The decoder's lines with the fields read as numbers. -/
theorem decodeCmd_eq (w : Word8) :
    decodeCmd w =
      if w.toNat / 8 % 8 ≠ 0 then .error .reservedBits
      else if w.toNat / 64 = 0 then (if w.toNat % 8 = 0 then .ok .getst else .error .getstOperand)
      else if w.toNat / 64 = 1 then .ok (.setst (mField w))
      else if w.toNat / 64 = 2 then (if w.toNat % 8 = 0 then .ok .run else .error .runOperand)
      else .error .reservedOp := by
  simp only [decodeCmd, ne_eq, ← BitVec.toNat_inj, rsvField_toNat, opField_toNat, mField_toNat]
  rfl

theorem encode_setst_toNat (m : Mask) : (0x40 + m.setWidth 8 : Word8).toNat = 0x40 + m.toNat := by
  have hm := m.isLt
  have h64 : (0x40 : Word8).toNat = 64 := rfl
  rw [BitVec.toNat_add, BitVec.toNat_setWidth, h64]
  omega

/-- Every defined word is the encoding of the command it decodes to. -/
theorem encode_of_decodeCmd {w : Word8} {i : Instr} (h : decodeCmd w = .ok i) : encode i = .cmd w := by
  have hw := w.isLt
  rw [decodeCmd_eq] at h
  split_ifs at h <;> cases h <;> refine congrArg Signal.cmd (BitVec.eq_of_toNat_eq ?_)
  · change 0 = w.toNat
    omega
  · rw [encode_setst_toNat, mField_toNat]
    omega
  · change 128 = w.toNat
    omega

/-- A signal selects an operation exactly when the operation encodes to it (R66). -/
theorem decode_eq_ok_iff {sig : Signal} {i : Instr} : decode sig = .ok i ↔ encode i = sig := by
  refine ⟨fun h => ?_, fun h => h ▸ decode_encode i⟩
  cases sig with
  | cmd w => exact encode_of_decodeCmd h
  | event l => cases h; cases l <;> rfl

theorem decodeCmd_eq_ok_iff {w : Word8} {i : Instr} : decodeCmd w = .ok i ↔ encode i = .cmd w :=
  decode_eq_ok_iff (sig := .cmd w)

/-- Settles O4: the decoder line by line from its fields, the inverse from `decode_eq_ok_iff`. -/
theorem decodeAndEncodeAgree : Obligations.DecodeAndEncodeAgree := by
  refine ⟨fun w => ?_, rfl, rfl, fun m => ⟨_, rfl, encode_setst_toNat m⟩, fun sig i => decode_eq_ok_iff⟩
  rw [decode, decodeCmd_eq, ← mField_eq_ofNat]
  split_ifs <;> simp

/-! ### Matches and masks (R60 to R62) -/

/-- SETST's mask keeps `op` and `rsv`, and its match asks for `01` and `000`. -/
theorem and_setstMask_eq_iff (w : Word8) : w &&& 0xF8 = 0x40 ↔ w.toNat / 8 = 8 := by
  revert w; decide

theorem and_fullMask (w : Word8) : w &&& 0xFF = w := BitVec.and_allOnes

theorem decodeCmd_getst_iff (w : Word8) : decodeCmd w = .ok .getst ↔ w &&& 0xFF = 0x00 := by
  rw [decodeCmd_eq_ok_iff, encode, Signal.cmd.injEq, and_fullMask, eq_comm]

theorem decodeCmd_run_iff (w : Word8) : decodeCmd w = .ok .run ↔ w &&& 0xFF = 0x80 := by
  rw [decodeCmd_eq_ok_iff, encode, Signal.cmd.injEq, and_fullMask, eq_comm]

theorem decodeCmd_setst_iff (w : Word8) : (∃ m, decodeCmd w = .ok (.setst m)) ↔ w &&& 0xF8 = 0x40 := by
  rw [and_setstMask_eq_iff]
  constructor
  · rintro ⟨m, h⟩
    have hm := m.isLt
    cases decodeCmd_eq_ok_iff.mp h
    rw [encode_setst_toNat]
    omega
  · intro h
    refine ⟨mField w, ?_⟩
    rw [decodeCmd_eq, if_neg (by omega), if_neg (by omega), if_pos (by omega)]

/-- Settles O1. -/
theorem commandWordsMatchTheirMasks : Obligations.CommandWordsMatchTheirMasks :=
  ⟨decodeCmd_getst_iff, decodeCmd_setst_iff, fun m => decode_encode (.setst m), decode_encode (.setst 0b010),
    decodeCmd_run_iff⟩

/-- What the table decoder reads, it reads from a word of 8 bits. -/
theorem decodeTableWord_eq_some {nbits w : Nat} {i : Instr} (h : decodeTableWord nbits w = some i) :
    w % 2 ^ nbits < 256 ∧ decodeCmd (BitVec.ofNat 8 (w % 2 ^ nbits)) = .ok i := by
  unfold decodeTableWord at h
  split_ifs at h with hlt
  refine ⟨hlt, ?_⟩
  cases hd : decodeCmd (BitVec.ofNat 8 (w % 2 ^ nbits)) <;> rw [hd] at h <;> cases h
  rfl

/-- Settles O2, each word by evaluating the decoder. -/
theorem writtenWordsDecode : Obligations.WrittenWordsDecode :=
  ⟨by decide, by decide, by decide, by decide, by decide, by decide, rfl, rfl, rfl, rfl⟩

/-! ### Reserved words (R63) -/

theorem decodeCmd_error_iff (w : Word8) :
    (∃ r, decodeCmd w = .error r) ↔
      (w.toNat / 64 = 3 ∨ w.toNat / 8 % 8 ≠ 0 ∨ (0x01 ≤ w.toNat ∧ w.toNat ≤ 0x07) ∨
        (0x81 ≤ w.toNat ∧ w.toNat ≤ 0x87)) := by
  have hw := w.isLt
  rw [decodeCmd_eq]
  split_ifs <;> simp <;> omega

/-- The ten defined command words. -/
def definedWords : List Nat := 0x00 :: 0x80 :: List.range' 0x40 8

theorem mem_definedWords_iff {n : Nat} (hn : n < 256) :
    n ∈ definedWords ↔ ∃ i, decodeCmd (BitVec.ofNat 8 n) = .ok i := by
  rw [decodeCmd_eq, BitVec.toNat_ofNat, Nat.mod_eq_of_lt hn]
  simp only [definedWords, List.mem_cons, List.mem_range'_1]
  split_ifs <;> simp <;> omega

theorem countP_defined {p : Nat → Bool} (hp : ∀ n, p n = true ↔ ∃ i, decodeCmd (BitVec.ofNat 8 n) = .ok i) :
    (List.range 256).countP p = 10 := by
  have hperm : ((List.range 256).filter p).Perm definedWords := by
    refine (List.perm_ext_iff_of_nodup (List.nodup_range.filter p) (by decide)).mpr fun n => ?_
    rw [List.mem_filter, List.mem_range, hp]
    refine ⟨fun ⟨hn, hdec⟩ => (mem_definedWords_iff hn).mpr hdec, fun hmem => ?_⟩
    have hn : n < 256 := by simp [definedWords] at hmem; omega
    exact ⟨hn, (mem_definedWords_iff hn).mp hmem⟩
  rw [List.countP_eq_length_filter, hperm.length_eq]; rfl

/-- The words that are not defined are the rest of the 256. -/
theorem countP_reserved {p : Nat → Bool} (hp : ∀ n, p n = true ↔ ∃ r, decodeCmd (BitVec.ofNat 8 n) = .error r) :
    (List.range 256).countP p = 246 := by
  have hdefined := countP_defined (p := fun n => !p n) fun n => by
    rw [Bool.not_eq_true', ← Bool.not_eq_true, hp]
    cases decodeCmd (BitVec.ofNat 8 n) <;> simp
  have htotal := List.length_eq_countP_add_countP p (l := List.range 256)
  simp only [List.length_range, Bool.not_eq_true, Bool.decide_eq_false] at htotal
  omega

/-- Settles O3. -/
theorem reservedWordsAreRejected : Obligations.ReservedWordsAreRejected := by
  refine ⟨decodeCmd_error_iff, countP_defined fun n => ?_, countP_reserved fun n => ?_,
    fun w r s h => Machine.perform_of_error (sig := .cmd w) h s⟩
  · cases decodeCmd (BitVec.ofNat 8 n) <;> simp
  · cases decodeCmd (BitVec.ofNat 8 n) <;> simp

/-! ### The opcode table (R60 to R62, R65) -/

theorem encode_matches_row (i : Instr) : i.row.covers (encode i) = true ∧ i.row ∈ opcodeTable := by
  cases i with
  | getst => exact Laws.MatchesTable.getst
  | setst m => exact Laws.MatchesTable.setst m
  | run => exact Laws.MatchesTable.run
  | t0clk => exact Laws.MatchesTable.t0clk
  | t1clk => exact Laws.MatchesTable.t1clk
  | svc => exact Laws.MatchesTable.svc
  | reset => exact Laws.MatchesTable.reset

theorem covers_cmd8_iff {mask pattern : Word8} {sig : Signal} :
    (Row.mk .cmd8 mask pattern).covers sig = true ↔ ∃ w, sig = .cmd w ∧ w &&& mask = pattern := by
  cases sig <;> simp [Row.covers]

/-- The row of an event asks for its line to be 1. -/
theorem covers_evt_iff {l : Line} {sig : Signal} :
    (Row.mk (.evt l) 0x1 0x1).covers sig = true ↔ sig = .event l := by
  cases sig <;> simp [Row.covers, eq_comm]

/-- What falls under an operation's row decodes to an operation of that row. -/
theorem decode_of_covers_row {i : Instr} {sig : Signal} (h : i.row.covers sig = true) :
    ∃ j, decode sig = .ok j ∧ j.row = i.row := by
  cases i with
  | t0clk | t1clk | svc | reset =>
    obtain rfl := covers_evt_iff.mp h
    exact ⟨_, rfl, rfl⟩
  | getst =>
    obtain ⟨w, rfl, hw⟩ := covers_cmd8_iff.mp h
    exact ⟨_, (decodeCmd_getst_iff w).mpr hw, rfl⟩
  | setst m =>
    obtain ⟨w, rfl, hw⟩ := covers_cmd8_iff.mp h
    obtain ⟨m', hm'⟩ := (decodeCmd_setst_iff w).mpr hw
    exact ⟨_, hm', rfl⟩
  | run =>
    obtain ⟨w, rfl, hw⟩ := covers_cmd8_iff.mp h
    exact ⟨_, (decodeCmd_run_iff w).mpr hw, rfl⟩

/-- Every row of the opcode table is an operation's. -/
theorem exists_row_of_mem_opcodeTable {r : Row} (h : r ∈ opcodeTable) : ∃ i : Instr, i.row = r := by
  simp only [opcodeTable, List.mem_cons, List.not_mem_nil, or_false] at h
  rcases h with rfl | rfl | rfl | rfl | rfl | rfl | rfl <;> exact ⟨_, rfl⟩

/-- A row of the opcode table covers exactly the signals of its own operations. -/
theorem covers_iff_decode {r : Row} (hr : r ∈ opcodeTable) (sig : Signal) :
    r.covers sig = true ↔ ∃ i, decode sig = .ok i ∧ i.row = r := by
  constructor
  · obtain ⟨i, rfl⟩ := exists_row_of_mem_opcodeTable hr
    exact decode_of_covers_row
  · rintro ⟨i, hi, rfl⟩
    rw [← decode_eq_ok_iff.mp hi]
    exact (encode_matches_row i).left

theorem opcodeTable_pairwise_ne : opcodeTable.Pairwise (· ≠ ·) := by decide

/-- Settles O5: a signal decodes to at most one operation, and no two rows are the same, so none covers what another does. -/
theorem opcodeTableIsUnambiguous : Obligations.OpcodeTableIsUnambiguous := by
  refine ⟨opcodeTable_pairwise_ne.imp_of_mem fun {r r'} hr hr' hne sig hboth => ?_, fun sig => ?_⟩
  · obtain ⟨i, hi, hrow⟩ := (covers_iff_decode hr sig).mp hboth.left
    obtain ⟨i', hi', hrow'⟩ := (covers_iff_decode hr' sig).mp hboth.right
    cases hi.symm.trans hi'
    exact hne (hrow.symm.trans hrow')
  · constructor
    · rintro ⟨i, hi⟩
      have hmem := (encode_matches_row i).right
      exact ⟨i.row, hmem, (covers_iff_decode hmem sig).mpr ⟨i, hi, rfl⟩⟩
    · rintro ⟨r, hr, hcovers⟩
      obtain ⟨i, hi, -⟩ := (covers_iff_decode hr sig).mp hcovers
      exact ⟨i, hi⟩

namespace Machine

/-! ### The ports (R57) -/

/-- Settles O23. -/
theorem outPortCarriesTheOutputs : Obligations.OutPortCarriesTheOutputs := by
  intro s c
  rw [State.outPort, BitVec.getLsbD_append, BitVec.getLsbD_append]
  cases c <;> simp [Ch.idx]

/-! ### Signals presented in the next cycle (R57, R58, R65) -/

/-- Settles O53: the word presented is the one due, and it decodes to the instruction read. -/
theorem presentedWordRunsNext : Obligations.PresentedWordRunsNext := by
  intro s nbits w i h
  obtain ⟨hlt, hdec⟩ := decodeTableWord_eq_some h
  have hword : s.withFetchWord nbits w =
      { s with inputs := Cycle.command (BitVec.ofNat 8 (w % 2 ^ nbits)) :: s.inputs } := if_pos hlt
  have hdue : (s.withFetchWord nbits w).due = some (.cmd (BitVec.ofNat 8 (w % 2 ^ nbits))) := by rw [hword]; rfl
  rw [step_of_due hdue, perform_of_ok (by exact hdec), hword]
  rfl

/-- A signal presented is the one due: SVC's raises its own tick. -/
theorem due_presentSignal (s : State) (sig : Signal) : (s.presentSignal sig).due = some sig := by
  cases sig with
  | cmd w => rfl
  | event l =>
    cases l with
    | rst | t0clkEn | t1clkEn => rfl
    | tickpend => simp [State.due, State.ports, State.presentSignal, Cycle.ofSignal, Cycle.idle]

/-- Taking the presented signal out of its cycle ends the cycle or leaves no line raised in it. -/
theorem consume_presentSignal (s : State) (sig : Signal) :
    ∃ rest, (rest = s.inputs ∨ ∃ p : Cycle, rest = p :: s.inputs ∧ p.rst = false ∧ p.cmdValid = false ∧
        p.t0clkEn = false ∧ p.t1clkEn = false) ∧
      (s.presentSignal sig).consume sig =
        { s with inputs := rest, tickpend := s.tickpend || sig = .event .tickpend } := by
  cases sig with
  | cmd w => exact ⟨_, .inr ⟨_, rfl, rfl, rfl, rfl, rfl⟩, rfl⟩
  | event l =>
    cases l with
    | rst | tickpend => exact ⟨_, .inl rfl, rfl⟩
    | t0clkEn | t1clkEn => exact ⟨_, .inr ⟨_, rfl, rfl, rfl, rfl, rfl⟩, rfl⟩

theorem encode_eq_tickpend_iff (i : Instr) : encode i = .event .tickpend ↔ i = .svc := by
  rw [← decode_eq_ok_iff, decode, decodeLine, Except.ok.injEq, eq_comm]

/-- Settles O54. -/
theorem presentedSignalRunsNext : Obligations.PresentedSignalRunsNext := by
  intro s i
  obtain ⟨rest, hrest, hconsume⟩ := consume_presentSignal s (encode i)
  refine ⟨rest, hrest, ?_⟩
  rw [step_of_due (due_presentSignal s (encode i)), perform_of_ok (decode_encode i), hconsume]
  simp only [encode_eq_tickpend_iff]

/-! ### PERIOD and TICK (R69, R70) -/

/-- A counter whose positions are the states `H n` counts on as far as its top. -/
theorem repeatOp_count {f : State → Host.Outcome State Fault Refusal} {H : Nat → State} {top : Nat}
    (hH : ∀ n < top, f (H n) = .next (H (n + 1))) {k n : Nat} (hk : n + k ≤ top) :
    repeatOp f k (H n) = .next (H (n + k)) := by
  induction k generalizing n with
  | zero => rfl
  | succ k ih => rw [repeatOp, hH n (by omega), andThen_next, ih (by omega), Nat.add_assoc, Nat.add_comm 1]

/-- The states `F n` are a counter's positions before its wrap and `G n` those after it. One full turn of the counter, from
any position, comes back to that position and has wrapped once. -/
theorem repeatOp_full_turn {f : State → Host.Outcome State Fault Refusal} {F G : Nat → State} {top : Nat}
    (hF : ∀ n < top, f (F n) = .next (F (n + 1))) (hwrap : f (F top) = .next (G 0))
    (hG : ∀ n < top, f (G n) = .next (G (n + 1))) {n : Nat} (hn : n ≤ top) :
    repeatOp f (top + 1) (F n) = .next (G n) := by
  have hsplit : top + 1 = (top - n) + (1 + n) := by omega
  rw [hsplit, repeatOp_add, repeatOp_count hF (by omega), andThen_next, Nat.add_sub_cancel' hn, repeatOp_add,
    repeatOp_one, hwrap, andThen_next, repeatOp_count hG (by omega), Nat.zero_add]

/-- Settles O18: the PWM timer turns once, and its wrap latches. -/
theorem periodLatchesExactlyOnce : Obligations.PeriodLatchesExactlyOnce := by
  intro s hs
  exact repeatOp_full_turn (F := fun n => { s with cnt0 := n }) (G := fun n => { s with cnt0 := n, ccv := s.ccvb })
    (fun n hn => by rw [exec_t0clk, countPwm_count (by exact hn.ne)]) (by rw [exec_t0clk, countPwm_wrap (by rfl)])
    (fun n hn => by rw [exec_t0clk, countPwm_count (by exact hn.ne)]) hs

/-- The tick timer turns once, and its wrap raises the tick. -/
theorem repeatOp_t1clk_full_turn {s : State} (hrun : s.run = true) (hcnt1 : s.cnt1 ≤ s.cfg.params.top1) :
    repeatOp (exec .t1clk) (s.cfg.params.top1 + 1) s = .next s.raiseTick :=
  repeatOp_full_turn (F := fun n => { s with cnt1 := n }) (G := fun n => { s.raiseTick with cnt1 := n })
    (fun n hn => by rw [exec_t1clk, countTick_count (by exact hrun) (by exact hn.ne)])
    (by rw [exec_t1clk, countTick_wrap (by exact hrun) (by rfl)]; rfl)
    (fun n hn => by rw [exec_t1clk, countTick_count (by exact hrun) (by exact hn.ne)]) hcnt1

/-- TICK where it is defined is the SVC of the tick that it raises. -/
theorem tick_eq_svc {s : State} (hrun : s.run = true) (ht : s.tickpend = false) (hcnt1 : s.cnt1 ≤ s.cfg.params.top1) :
    tick s = exec .svc s.raiseTick := by
  rw [tick_of_ready hrun ht, repeatOp_t1clk_full_turn hrun hcnt1, andThen_next]

theorem tick_of_not_ready {s : State} (h : s.run = false ∨ s.tickpend = true) : tick s = .refused .tickUndefined := by
  rcases h with h | h <;> simp [tick, h]

/-- With the invariants TICK goes through where it is defined. -/
theorem State.Inv.tick_eq {s : State} (hs : s.Inv) (hrun : s.run = true) (ht : s.tickpend = false) :
    tick s = .next s.raiseTick.afterSvc := by
  rw [tick_eq_svc hrun ht hs.cnt1_le]
  exact execSvc_of_duty_le rfl hs.duty_le

/-- Settles O19. -/
theorem tickIsOneUpdate : Obligations.TickIsOneUpdate :=
  ⟨fun _ hrun ht hcnt1 => tick_eq_svc hrun ht hcnt1, fun _ hs hrun ht => ⟨_, hs.tick_eq hrun ht, rfl, rfl⟩,
    fun _ => tick_of_not_ready⟩

/-! ### Host-level programs (R67) -/

theorem filter_ne_run_map_hostCallItem (p : List HostCall) :
    (p.map hostCallItem).filter (fun x => x ≠ (.op .run, 1)) = p.map hostCallItem := by
  rw [List.filter_eq_self]
  intro x hx
  obtain ⟨c, -, rfl⟩ := List.mem_map.mp hx
  exact decide_eq_true (hostCallItem_ne_run c)

/-- A TICK item comes from a call that awaits ticks. -/
theorem any_awaitsTicks_of_tick_mem {p : List HostCall} {n : Nat} (h : (Item.tick, n) ∈ p.map hostCallItem) :
    p.any awaitsTicks = true := by
  obtain ⟨c, hc, hitem⟩ := List.mem_map.mp h
  refine List.any_eq_true.mpr ⟨c, hc, ?_⟩
  cases c with
  | afterTicks k => rfl
  | setLedsPwm m => cases hitem
  | getLedsPwm => cases hitem

/-- Settles O59: where a program awaits ticks its RUN stands in front, and elsewhere its trace has no TICK item. -/
theorem hostProgramsTranslateWordForWord : Obligations.HostProgramsTranslateWordForWord := by
  refine ⟨fun _ => rfl, rfl, fun _ => rfl, fun p => ?_⟩
  rcases programTrace_cases p with ⟨-, htrace⟩ | ⟨hnone, htrace⟩ <;> rw [htrace]
  · refine ⟨by simpa using filter_ne_run_map_hostCallItem p, fun before n rest h => ?_⟩
    cases before with
    | nil => cases h
    | cons x xs =>
      obtain ⟨rfl, -⟩ := List.cons.inj h
      exact List.mem_cons_self
  · refine ⟨filter_ne_run_map_hostCallItem p, fun before n rest h => ?_⟩
    have htick : (Item.tick, n) ∈ p.map hostCallItem := by rw [h]; simp
    rw [any_awaitsTicks_of_tick_mem htick] at hnone
    cases hnone

theorem State.Inv.raiseTick {s : State} (hs : s.Inv) (hrun : s.run = true) : s.raiseTick.Inv :=
  { hs with idle := by simp [hrun] }

/-- A state between two calls of a host-level program: the invariants hold, no tick is pending, `m` is the mask last set,
and `ticking` says whether the tick timer is enabled. -/
structure State.BetweenCalls (ticking : Bool) (m : Mask) (s : State) : Prop where
  inv : s.Inv
  served : s.tickpend = false
  run_eq : s.run = ticking
  mask_eq : s.mask = m

/-- A performance that goes on and keeps a property can be repeated. -/
theorem repeatOp_completes {P : State → Prop} {f : State → Host.Outcome State Fault Refusal}
    (hf : ∀ s, P s → ∃ t, f s = .next t ∧ P t) (n : Nat) {s : State} (hs : P s) :
    ∃ t, repeatOp f n s = .next t ∧ P t := by
  induction n generalizing s with
  | zero => exact ⟨s, rfl, hs⟩
  | succ n ih =>
    obtain ⟨u, hu, hPu⟩ := hf s hs
    rw [repeatOp, hu]
    exact ih hPu

theorem tick_betweenCalls {m : Mask} {s : State} (hs : s.BetweenCalls true m) :
    ∃ t, tick s = .next t ∧ t.BetweenCalls true m :=
  ⟨_, hs.inv.tick_eq hs.run_eq hs.served, (hs.inv.raiseTick hs.run_eq).afterSvc rfl, rfl, hs.run_eq, hs.mask_eq⟩

/-- One call goes through; the passing of ticks needs the tick timer. -/
theorem call_completes (c : HostCall) {ticking : Bool} {m : Mask} {s : State} (hs : s.BetweenCalls ticking m)
    (hticking : awaitsTicks c = true → ticking = true) :
    ∃ t, repeatOp (performItem (hostCallItem c).1) (hostCallItem c).2 s = .next t ∧
      t.BetweenCalls ticking (maskAfter [c] m) := by
  cases c with
  | setLedsPwm m' =>
    exact ⟨(s.setTargets m').respond .ok 0, rfl, (hs.inv.setTargets m').respond _ _, hs.served, hs.run_eq, rfl⟩
  | getLedsPwm => exact ⟨s.respond .ok (maskResponse s.mask), rfl, hs.inv.respond _ _, hs.served, hs.run_eq, hs.mask_eq⟩
  | afterTicks n =>
    cases hticking rfl
    exact repeatOp_completes (fun _ => tick_betweenCalls) n hs

/-- The calls of a program go through one after another. -/
theorem calls_complete (p : List HostCall) {ticking : Bool} {m : Mask} {s : State} (hs : s.BetweenCalls ticking m)
    (hticking : p.any awaitsTicks = true → ticking = true) :
    ∃ t, performTrace (p.map hostCallItem) s = .next t ∧ t.BetweenCalls ticking (maskAfter p m) := by
  induction p generalizing m s with
  | nil => exact ⟨s, rfl, hs⟩
  | cons c p ih =>
    rw [List.any_cons, Bool.or_eq_true] at hticking
    obtain ⟨u, hu, hbu⟩ := call_completes c hs fun h => hticking (.inl h)
    obtain ⟨t, ht, hbt⟩ := ih hbu fun h => hticking (.inr h)
    exact ⟨t, by rw [List.map_cons, ← Prod.mk.eta (p := hostCallItem c), performTrace_cons, hu, andThen_next, ht], hbt⟩

/-- The trace of a program goes through, with the RUN in front where it has one. -/
theorem programTrace_completes (p : List HostCall) {s : State} (hs : s.Inv) (ht : s.tickpend = false) :
    ∃ t ticking, performTrace (programTrace p) s = .next t ∧ t.BetweenCalls ticking (maskAfter p s.mask) := by
  rcases programTrace_cases p with ⟨-, htrace⟩ | ⟨hnone, htrace⟩ <;> rw [htrace]
  · have hrun : (s.enableTicks.respond .ok 0).BetweenCalls true s.mask := ⟨hs.enableTicks.respond _ _, ht, rfl, rfl⟩
    obtain ⟨t, hperf, hb⟩ := calls_complete p hrun fun _ => rfl
    exact ⟨t, true, by rw [performTrace_op, exec_run, andThen_next, hperf], hb⟩
  · obtain ⟨t, hperf, hb⟩ := calls_complete p ⟨hs, ht, rfl, rfl⟩ fun h => absurd h (by simp [hnone])
    exact ⟨t, s.run, hperf, hb⟩

/-- The state in which a program ends answers GETST with the mask last set. -/
theorem programTrace_reads_back (p : List HostCall) (s : State) (hs : s.Inv) (ht : s.tickpend = false) :
    ∃ t u, performTrace (programTrace p) s = .next t ∧ t.Inv ∧ t.tickpend = false ∧
      exec .getst t = .next u ∧ u.rsp = (maskAfter p s.mask).setWidth 8 := by
  obtain ⟨t, _, hperf, hb⟩ := programTrace_completes p hs ht
  exact ⟨t, _, hperf, hb.inv, hb.served, exec_getst t, hb.mask_eq ▸ rfl⟩

/-- Settles O60: RESET leads from any state to one with the invariants in which no tick is pending. -/
theorem hostProgramsRunToTheirEnd : Obligations.HostProgramsRunToTheirEnd := by
  refine ⟨programTrace_reads_back, fun p s => ?_⟩
  rw [bootTrace, performTrace_op, exec_reset, andThen_next]
  exact programTrace_reads_back p s.resetFields (resetFields_inv s) rfl

end Machine

end Sys2Proof
end

section
/-! The host command rules (40_host_commands.md): RUN (R76), the read-back of the mask (R75), what the host can reach (R77,
R79), GETST (R72) and SETST (R73, R74). -/

namespace Sys2Proof

/-- A command word selects one of the three host commands, or none (30_encoding.md R60 to R63). -/
theorem hostCommand_of_decodeCmd {w : Word8} {i : Instr} (h : decodeCmd w = .ok i) :
    i = .getst ∨ (∃ m, i = .setst m) ∨ i = .run := by
  have hencode := encode_of_decodeCmd h
  cases i with
  | getst => exact .inl rfl
  | setst m => exact .inr (.inl ⟨m, rfl⟩)
  | run => exact .inr (.inr rfl)
  | t0clk | t1clk | svc | reset => cases hencode

namespace Machine

/-! ### RUN and the tick timer (R76) -/

/-- No operation but RESET stops the tick timer, since only RUN writes `RUN` otherwise (10_state.md R24, R32). -/
theorem exec_keeps_run {i : Instr} {s t : State} (h : exec i s = .next t) (hreset : i ≠ .reset) (hrun : s.run = true) :
    t.run = true := by
  obtain ⟨-, -, -, -, -, -, -, -, -, hwriter, -⟩ := eachFieldHasItsWriters i s t h hreset
  by_cases hsame : t.run = s.run
  · exact hsame.trans hrun
  · exact (hwriter hsame).right

/-- Settles O9. -/
theorem runEnablesTheTickTimer : Obligations.RunEnablesTheTickTimer := by
  refine ⟨rfl, fun s => ⟨_, exec_run s, rfl, exec_run _⟩, fun i s t h hrun hstopped => ?_, fun s hrun => ?_⟩
  · by_contra hreset
    exact absurd (exec_keeps_run h hreset hrun) (by simp [hstopped])
  · rw [exec_t1clk, countTick_held hrun]

/-! ### The mask is read back (R75) -/

/-- Only SETST and RESET write the mask (10_state.md R17, R32). -/
theorem exec_keeps_mask {i : Instr} {s t : State} (h : exec i s = .next t) (hreset : i ≠ .reset)
    (hsetst : ∀ m, i ≠ .setst m) : t.mask = s.mask := by
  obtain ⟨-, -, -, -, -, hwriter, -⟩ := eachFieldHasItsWriters i s t h hreset
  by_contra hchanged
  obtain ⟨m, hm⟩ := hwriter hchanged
  exact hsetst m hm

/-- Operations among which there is no SETST and no RESET leave the mask as it was. -/
theorem runOps_keeps_mask {ops : List Instr} {s t : State} (hops : ∀ i ∈ ops, i ≠ .reset ∧ ∀ m, i ≠ .setst m)
    (h : runOps ops s = .next t) : t.mask = s.mask :=
  runOps_induction (P := fun u => u.mask = s.mask) (Q := fun i => i ≠ .reset ∧ ∀ m, i ≠ .setst m)
    (fun _ _ _ ⟨hreset, hsetst⟩ hu hexec => (exec_keeps_mask hexec hreset hsetst).trans hu) ops s t hops rfl h

/-- Settles O10: SETST leaves its mask in `MASK`, and the operations between keep it there. -/
theorem getstReturnsTheLastMaskSet : Obligations.GetstReturnsTheLastMaskSet := by
  intro m ops s t hops h
  rw [runOps, exec_setst, andThen_next] at h
  have hmask : t.mask = m := runOps_keeps_mask hops h
  exact ⟨_, exec_getst t, rfl, congrArg maskResponse hmask⟩

/-! ### What the host can reach (R77, R79) -/

/-- Settles O11, over what a word can select: one of the three host commands, or `CmdReject`. -/
theorem hostReachesOnlyItsOwnFields : Obligations.HostReachesOnlyItsOwnFields := by
  intro w s
  cases hd : decodeCmd w with
  | error r => exact ⟨_, perform_of_error (sig := .cmd w) hd s, rfl, fun hrun => hrun⟩
  | ok i =>
    rw [perform_of_ok (sig := .cmd w) hd]
    rcases hostCommand_of_decodeCmd hd with rfl | ⟨m, rfl⟩ | rfl
    · exact ⟨_, exec_getst s, rfl, fun hrun => hrun⟩
    · exact ⟨_, exec_setst m s, rfl, fun hrun => hrun⟩
    · exact ⟨_, exec_run s, rfl, fun _ => rfl⟩

/-! ### GETST (R72) -/

/-- Settles O6. -/
theorem getstRespondsTheMask : Obligations.GetstRespondsTheMask :=
  ⟨rfl, fun s => ⟨_, exec_getst s, maskResponse_toNat s.mask, rfl⟩, fun cfg => ⟨_, exec_getst (State.resetOf cfg), rfl⟩⟩

/-! ### SETST (R73, R74) -/

/-- Settles O7. -/
theorem setstWritesDirectionsAndMask : Obligations.SetstWritesDirectionsAndMask :=
  ⟨fun m => ⟨_, rfl, encode_setst_toNat m⟩, fun m s => ⟨_, exec_setst m s, maskDirs_get m, rfl⟩⟩

/-- Where the directions are the mask's bits (10_state.md R18), the targets of the stored mask are there already. -/
theorem setTargets_mask_self {s : State} (h : ∀ c, s.dir.get c = maskDir s.mask c) : s.setTargets s.mask = s := by
  have hdirs : maskDirs s.mask = s.dir := Tri.ext_get fun c => (maskDirs_get s.mask c).trans (h c).symm
  rw [State.setTargets, hdirs]

/-- Settles O8. -/
theorem setstIsIdempotent : Obligations.SetstIsIdempotent := by
  refine ⟨fun s hdir => ⟨_, exec_setst s.mask s, ?_⟩, fun m s => ⟨_, exec_setst m s, rfl, exec_setst m _⟩⟩
  rw [setTargets_mask_self hdir]
  rfl

end Machine

end Sys2Proof
end

section
/-! The stepping engine rules (41_fade_engine.md): one step of one channel (R81, R86), SVC (R80, R82, R83, R88, R95), the
independence of the channels (R85), the gate schedule and its rate (R91, R92), and the fade (R93, R96, R97). -/

namespace Sys2Proof

/-- Writes to two elements can be made in either order. -/
theorem Tri.set_comm {α : Type} (t : Tri α) {c d : Ch} (h : d ≠ c) (a b : α) :
    (t.set c a).set d b = (t.set d b).set c a := by
  refine Tri.ext_get fun e => ?_
  simp only [Tri.get_set]
  split_ifs with hd hc
  · exact absurd (hd.symm.trans hc) h
  all_goals rfl

/-! ### A duty after a number of moves (R81, R86) -/

/-- A duty `v` after `n` moves in a direction: down to 0, or up to the bound `top` (R81). A duty above its bound, which no
state of the block has, does not rise. -/
def Dir.fade : Dir → (top v n : Nat) → Nat
  | .rising, top, v, n => max v (min top (v + n))
  | .falling, _, v, n => v - n

theorem Dir.fade_rising {top v : Nat} (n : Nat) (h : v ≤ top) : Dir.rising.fade top v n = min top (v + n) :=
  Nat.max_eq_right (Nat.le_min.mpr ⟨h, Nat.le_add_right v n⟩)

@[simp] theorem Dir.fade_zero (d : Dir) (top v : Nat) : d.fade top v 0 = v := by
  cases d with
  | rising => exact Nat.max_eq_left (Nat.min_le_right top v)
  | falling => rfl

/-- Moves add up, since a duty at its bound stays there. -/
theorem Dir.fade_fade (d : Dir) (top v m n : Nat) : d.fade top (d.fade top v m) n = d.fade top v (m + n) := by
  cases d with
  | rising => simp only [Dir.fade]; omega
  | falling => exact Nat.sub_sub v m n

/-- The bound of a direction, where the largest duty is `top` (R96). -/
def Dir.bound : Dir → (top : Nat) → Nat
  | .rising, top => top
  | .falling, _ => 0

/-- As many moves as the largest duty has units reach the bound, from any duty. -/
theorem Dir.fade_of_le (d : Dir) {top v n : Nat} (hv : v ≤ top) (hn : top ≤ n) : d.fade top v n = d.bound top := by
  cases d with
  | rising => exact (Dir.fade_rising n hv).trans (Nat.min_eq_left (Nat.le_add_left_of_le hn))
  | falling => exact Nat.sub_eq_zero_of_le (hv.trans hn)

/-- The operation neither resets the block nor asks for another direction of channel `c` than `d` (R96). -/
def Instr.Holds (c : Ch) (d : Dir) (i : Instr) : Prop := i ≠ .reset ∧ ∀ m, i = .setst m → Machine.maskDir m c = d

namespace Machine

/-! ### Step of one channel (R81, R86) -/

theorem stepTarget_up {s : State} {c : Ch} (h : s.dir.get c = .rising ∧ s.duty.get c < maxDuty s.cfg c) :
    s.stepTarget c = some (s.duty.get c + 1) := if_pos h

theorem stepTarget_down {s : State} {c : Ch} (h : s.dir.get c = .falling ∧ 0 < s.duty.get c) :
    s.stepTarget c = some (s.duty.get c - 1) := by
  rw [stepTarget_falling h.left, if_pos h.right]

theorem stepTarget_at_bound {s : State} {c : Ch} (hup : ¬ (s.dir.get c = .rising ∧ s.duty.get c < maxDuty s.cfg c))
    (hdown : ¬ (s.dir.get c = .falling ∧ 0 < s.duty.get c)) : s.stepTarget c = none := by
  rw [State.stepTarget, if_neg hup, if_neg hdown]

theorem stepChannel_of_none {s : State} {c : Ch} (h : s.stepTarget c = none) : s.stepChannel c = .ok s := by
  rw [State.stepChannel, h]

/-- A move within the precondition of `SetDuty` writes the new duty and its push. -/
theorem stepChannel_of_some {s : State} {c : Ch} {v : Nat} (h : s.stepTarget c = some v) (hv : v ≤ s.cfg.params.top0) :
    s.stepChannel c = .ok ((s.withDuty c v).memWrite c v) := by
  rw [State.stepChannel, h]
  exact setDuty_of_le hv

/-- A move is seen in no other channel. -/
theorem moved_get_other (s : State) (v : Nat) {c d : Ch} (h : d ≠ c) :
    ((s.withDuty c v).memWrite c v).duty.get d = s.duty.get d ∧
      ((s.withDuty c v).memWrite c v).ccvb.get d = s.ccvb.get d :=
  ⟨Tri.get_set_other _ _ h, Tri.get_set_other _ _ h⟩

/-- Settles O29, by the guards of `Step`: up, down, or at the bound. -/
theorem stepMovesOneUnitOrNothing : Obligations.StepMovesOneUnitOrNothing := by
  intro s c hle
  by_cases hup : s.dir.get c = .rising ∧ s.duty.get c < maxDuty s.cfg c
  · have hv := stepTarget_up hup
    refine ⟨_, stepChannel_of_some hv (stepTarget_le hle hv), fun _ hd => moved_get_other s _ hd, rfl, ?_⟩
    rw [if_pos hup]
    exact ⟨Tri.get_set_self _ _ _, Tri.get_set_self _ _ _⟩
  by_cases hdown : s.dir.get c = .falling ∧ 0 < s.duty.get c
  · have hv := stepTarget_down hdown
    refine ⟨_, stepChannel_of_some hv (stepTarget_le hle hv), fun _ hd => moved_get_other s _ hd, rfl, ?_⟩
    rw [if_neg hup, if_pos hdown]
    exact ⟨Tri.get_set_self _ _ _, Tri.get_set_self _ _ _⟩
  · refine ⟨s, stepChannel_of_none (stepTarget_at_bound hup hdown), fun _ _ => ⟨rfl, rfl⟩, rfl, ?_⟩
    rw [if_neg hup, if_neg hdown]

/-! ### What an SVC makes of one channel (R80, R82, R88) -/

theorem afterSvc_channel_of_shut {s : State} {c : Ch} (hg : s.gate c = false) :
    s.dutyAfter c = s.duty.get c ∧ s.ccvbAfter c = s.ccvb.get c := by
  simp [State.dutyAfter, State.ccvbAfter, hg]

theorem afterSvc_channel_of_none {s : State} {c : Ch} (h : s.stepTarget c = none) :
    s.dutyAfter c = s.duty.get c ∧ s.ccvbAfter c = s.ccvb.get c := by
  simp [State.dutyAfter, State.ccvbAfter, h]

theorem afterSvc_channel_of_some {s : State} {c : Ch} {v : Nat} (hg : s.gate c = true) (h : s.stepTarget c = some v) :
    s.dutyAfter c = v ∧ s.ccvbAfter c = v := by
  simp [State.dutyAfter, State.ccvbAfter, hg, h]

/-- Everything an SVC can make of one channel: it stays as it was, or it moves and pushes. -/
theorem afterSvc_channel_cases (s : State) (c : Ch) :
    (s.dutyAfter c = s.duty.get c ∧ s.ccvbAfter c = s.ccvb.get c) ∨
      (s.ccvbAfter c = s.dutyAfter c ∧
        (s.dutyAfter c = s.duty.get c + 1 ∨ s.duty.get c = s.dutyAfter c + 1)) := by
  cases hg : s.gate c with
  | false => exact .inl (afterSvc_channel_of_shut hg)
  | true =>
    cases hv : s.stepTarget c with
    | none => exact .inl (afterSvc_channel_of_none hv)
    | some v =>
      obtain ⟨hduty, hccvb⟩ := afterSvc_channel_of_some hg hv
      rw [hduty, hccvb]
      rcases stepTarget_eq_some hv with ⟨-, -, hup⟩ | ⟨-, -, hdown⟩
      · exact .inr ⟨rfl, .inl hup⟩
      · exact .inr ⟨rfl, .inr hdown⟩

/-- An SVC that completes leaves the state `afterSvc`. -/
theorem eq_afterSvc {s t : State} (h : exec .svc s = .next t) : t = s.afterSvc := by
  obtain ⟨-, -, ht⟩ := execSvc_eq_next.mp h
  exact ht

/-- Settles O32. -/
theorem pushExactlyWhenTheDutyChanged : Obligations.PushExactlyWhenTheDutyChanged := by
  intro s t c h
  rw [eq_afterSvc h, State.afterSvc_duty, State.afterSvc_ccvb]
  exact afterSvc_channel_cases s c

/-- No operation but SVC and RESET writes a duty (R95). -/
theorem exec_keeps_duty {i : Instr} {s t : State} (h : exec i s = .next t) (hreset : i ≠ .reset) (hsvc : i ≠ .svc) :
    t.duty = s.duty := by
  obtain ⟨hwriter, -⟩ := eachFieldHasItsWriters i s t h hreset
  by_contra hchanged
  exact hsvc (hwriter hchanged)

/-- Settles O31. -/
theorem dutyMovesByAtMostOne : Obligations.DutyMovesByAtMostOne := by
  intro i s t c h hreset
  refine ⟨?_, fun hsvc => by rw [exec_keeps_duty h hreset hsvc]⟩
  rintro rfl
  rw [eq_afterSvc h, State.afterSvc_duty]
  have := afterSvc_channel_cases s c
  omega

/-- Settles O26: with its push in range, an open gate's step is the gated step. -/
theorem gateOpensAtTheDivisor : Obligations.GateOpensAtTheDivisor := by
  refine ⟨fun s => ⟨gate_iff s .c0, rfl, gate_iff s .c2⟩, fun s t c h => ?_⟩
  obtain ⟨-, hpush, rfl⟩ := execSvc_eq_next.mp h
  rw [State.afterSvc_duty, State.afterSvc_ccvb]
  refine ⟨afterSvc_channel_of_shut, fun hg => ⟨s.stepped c, ?_, ?_⟩⟩
  · have hstep := gatedStep_eq_ok.mpr ⟨hpush c, rfl⟩
    rwa [State.gatedStep_eq, if_pos hg] at hstep
  · exact ⟨(Tri.get_set_self _ _ _).symm, (Tri.get_set_self _ _ _).symm⟩

/-! ### SVC (R80, R83) -/

/-- Settles O27. -/
theorem slowdownCountersAdvanceOnEverySvc : Obligations.SlowdownCountersAdvanceOnEverySvc := by
  refine ⟨fun s ht hle => ⟨_, execSvc_of_duty_le ht hle⟩, fun s t h => ?_⟩
  rw [eq_afterSvc h]
  exact ⟨rfl, rfl⟩

/-- The gate of channel 1, which has no slowdown counter, is named beside the comparison of the other two. -/
theorem c1_or_sdcnt_eq_iff_gate (s : State) (c : Ch) : c = .c1 ∨ s.sdcnt c = divOf s.cfg c ↔ s.gate c = true := by
  rw [gate_iff, or_iff_right_iff_imp]
  rintro rfl
  rfl

/-- The duty and the buffer of a channel after an SVC, in the terms of R80 and R81. -/
theorem afterSvc_channel_eq (s : State) (c : Ch) :
    if (c = .c1 ∨ s.sdcnt c = divOf s.cfg c) ∧ s.dir.get c = .rising ∧ s.duty.get c < maxDuty s.cfg c then
      s.dutyAfter c = s.duty.get c + 1 ∧ s.ccvbAfter c = s.duty.get c + 1
    else if (c = .c1 ∨ s.sdcnt c = divOf s.cfg c) ∧ s.dir.get c = .falling ∧ 0 < s.duty.get c then
      s.dutyAfter c = s.duty.get c - 1 ∧ s.ccvbAfter c = s.duty.get c - 1
    else s.dutyAfter c = s.duty.get c ∧ s.ccvbAfter c = s.ccvb.get c := by
  simp only [c1_or_sdcnt_eq_iff_gate]
  split_ifs with hup hdown
  · exact afterSvc_channel_of_some hup.left (stepTarget_up hup.right)
  · exact afterSvc_channel_of_some hdown.left (stepTarget_down hdown.right)
  · cases hg : s.gate c with
    | false => exact afterSvc_channel_of_shut hg
    | true => exact afterSvc_channel_of_none (stepTarget_at_bound (fun h => hup ⟨hg, h⟩) fun h => hdown ⟨hg, h⟩)

/-- Settles O30. -/
theorem svcIsThePerTickUpdate : Obligations.SvcIsThePerTickUpdate := by
  refine ⟨fun s ht hle => ⟨_, execSvc_of_duty_le ht hle, fun c => ?_, rfl, rfl, rfl, rfl⟩, fun s t ht h => ?_,
    decodeCmd_ne_svc, rfl⟩
  · rw [State.afterSvc_duty, State.afterSvc_ccvb]
    exact afterSvc_channel_eq s c
  · obtain ⟨hpending, -, -⟩ := execSvc_eq_next.mp h
    rw [ht] at hpending
    cases hpending

/-! ### The channels are independent (R85) -/

theorem gatedStep_bind_of_pushOk {s : State} {c : Ch} (h : s.PushOk c) (f : State → Except Fault State) :
    (s.gatedStep c).bind f = f (s.stepped c) := by
  rw [gatedStep_eq_ok.mpr ⟨h, rfl⟩, Except.bind]

/-- A gated step has one way to fail. -/
theorem gatedStep_of_not_pushOk {s : State} {c : Ch} (h : ¬ s.PushOk c) : s.gatedStep c = .error .setDutyRange := by
  unfold State.PushOk at h
  push Not at h
  obtain ⟨v, hg, hv, hgt⟩ := h
  rw [State.gatedStep_eq, if_pos hg, State.stepChannel, hv]
  exact setDuty_of_gt hgt

theorem gatedStep_bind_of_not_pushOk {s : State} {c : Ch} (h : ¬ s.PushOk c) (f : State → Except Fault State) :
    (s.gatedStep c).bind f = .error .setDutyRange := by
  rw [gatedStep_of_not_pushOk h, Except.bind]

theorem stepped_stepped {s : State} {c d : Ch} (h : d ≠ c) :
    (s.stepped c).stepped d =
      { s with
        duty := (s.duty.set c (s.dutyAfter c)).set d (s.dutyAfter d)
        ccvb := (s.ccvb.set c (s.ccvbAfter c)).set d (s.ccvbAfter d) } := by
  obtain ⟨-, hduty, hccvb⟩ := stepped_after (s := s) h
  rw [State.stepped, hduty, hccvb]
  rfl

theorem stepped_comm {s : State} {c d : Ch} (h : d ≠ c) : (s.stepped c).stepped d = (s.stepped d).stepped c := by
  rw [stepped_stepped h, stepped_stepped h.symm, Tri.set_comm _ h, Tri.set_comm _ h]

/-- The gated steps of two channels can be taken in either order, also where one of them fails. -/
theorem gatedStep_comm (s : State) {c d : Ch} (h : d ≠ c) :
    ((s.gatedStep c).bind fun u => u.gatedStep d) = (s.gatedStep d).bind fun u => u.gatedStep c := by
  obtain ⟨hpush, -, -⟩ := stepped_after (s := s) h
  obtain ⟨hpush', -, -⟩ := stepped_after (s := s) h.symm
  by_cases hc : s.PushOk c <;> by_cases hd : s.PushOk d
  · rw [gatedStep_bind_of_pushOk hc, gatedStep_bind_of_pushOk hd, gatedStep_eq_ok.mpr ⟨hpush.mpr hd, rfl⟩,
      gatedStep_eq_ok.mpr ⟨hpush'.mpr hc, rfl⟩, stepped_comm h]
  · rw [gatedStep_bind_of_pushOk hc, gatedStep_bind_of_not_pushOk hd, gatedStep_of_not_pushOk (mt hpush.mp hd)]
  · rw [gatedStep_bind_of_not_pushOk hc, gatedStep_bind_of_pushOk hd, gatedStep_of_not_pushOk (mt hpush'.mp hc)]
  · rw [gatedStep_bind_of_not_pushOk hc, gatedStep_bind_of_not_pushOk hd]

theorem except_bind_assoc {ε α β γ : Type} (x : Except ε α) (f : α → Except ε β) (g : β → Except ε γ) :
    (x.bind f).bind g = x.bind fun a => (f a).bind g := by
  cases x <;> rfl

/-- Three swaps of neighbours reverse the order of the channels. -/
theorem stepAll_reversed (s : State) :
    ((s.gatedStep .c2).bind fun s2 => (s2.gatedStep .c1).bind fun s1 => s1.gatedStep .c0) = s.stepAll :=
  calc ((s.gatedStep .c2).bind fun s2 => (s2.gatedStep .c1).bind fun s1 => s1.gatedStep .c0)
    _ = (s.gatedStep .c2).bind fun s2 => (s2.gatedStep .c0).bind fun s0 => s0.gatedStep .c1 := by
      simp only [gatedStep_comm _ (c := .c1) (d := .c0) (by decide)]
    _ = (s.gatedStep .c0).bind fun s0 => (s0.gatedStep .c2).bind fun s2 => s2.gatedStep .c1 := by
      rw [← except_bind_assoc, gatedStep_comm s (c := .c2) (d := .c0) (by decide), except_bind_assoc]
    _ = s.stepAll := by
      simp only [gatedStep_comm _ (c := .c2) (d := .c1) (by decide)]
      rfl

theorem afterSvc_sdcnt (s : State) (c : Ch) : s.afterSvc.sdcnt c = advanceCount (divOf s.cfg c) (s.sdcnt c) := by
  cases c <;> rfl

theorem gate_eq_decide (s : State) (c : Ch) : s.gate c = decide (s.sdcnt c = divOf s.cfg c) :=
  Bool.eq_iff_iff.mpr ((gate_iff s c).trans decide_eq_true_iff.symm)

/-- Settles O33: the gate and the step of a channel read its own fields and the parameters. -/
theorem channelsAreIndependent : Obligations.ChannelsAreIndependent := by
  refine ⟨stepAll_reversed, fun s s' t t' c h h' hcfg hduty hdir hsdcnt hccvb => ?_⟩
  have hgate : s.gate c = s'.gate c := by rw [gate_eq_decide, gate_eq_decide, hcfg, hsdcnt]
  have htarget : s.stepTarget c = s'.stepTarget c := by
    unfold State.stepTarget
    rw [hcfg, hduty, hdir]
  rw [eq_afterSvc h, eq_afterSvc h']
  refine ⟨?_, ?_, ?_⟩
  · rw [State.afterSvc_duty, State.afterSvc_duty, State.dutyAfter, hgate, htarget, hduty]; rfl
  · rw [State.afterSvc_ccvb, State.afterSvc_ccvb, State.ccvbAfter, hgate, htarget, hccvb]; rfl
  · rw [afterSvc_sdcnt, afterSvc_sdcnt, hcfg, hsdcnt]

/-! ### The slowdown counter along a run (R90, R91) -/

/-- The slowdown counter of channel `c` stands at one of the positions `1, 2, …, DIV[c]` (10_state.md R34 clause 2). -/
structure State.InCycle (s : State) (c : Ch) : Prop where
  pos : 1 ≤ s.sdcnt c
  le : s.sdcnt c ≤ divOf s.cfg c

theorem State.Inv.inCycle {s : State} (hs : s.Inv) (c : Ch) : s.InCycle c := by
  cases c with
  | c0 => exact ⟨hs.sdcnt0_pos, hs.sdcnt0_le⟩
  | c1 => exact ⟨le_rfl, le_rfl⟩
  | c2 => exact ⟨hs.sdcnt2_pos, hs.sdcnt2_le⟩

/-- How many open gates of channel `c` the operation `i` adds: one for an SVC that finds its gate open. -/
def gateCount (c : Ch) (i : Instr) (s : State) : Nat := if i = .svc ∧ s.gate c = true then 1 else 0

@[simp] theorem openGates_nil (c : Ch) (s : State) : openGates c [] s = 0 := rfl

theorem openGates_cons {c : Ch} {i : Instr} {is : List Instr} {s u : State} (h : exec i s = .next u) :
    openGates c (i :: is) s = gateCount c i s + openGates c is u := by
  rw [openGates, h, gateCount]

@[simp] theorem gateCount_svc (c : Ch) (s : State) :
    gateCount c .svc s = if s.sdcnt c = divOf s.cfg c then 1 else 0 := by
  simp [gateCount, gate_eq_decide]

theorem gateCount_of_ne_svc {i : Instr} (h : i ≠ .svc) (c : Ch) (s : State) : gateCount c i s = 0 := by
  simp [gateCount, h]

/-- Nothing but SVC and RESET writes a slowdown counter (R90). -/
theorem exec_keeps_sdcnt {i : Instr} {s t : State} (h : exec i s = .next t) (hreset : i ≠ .reset) (hsvc : i ≠ .svc)
    (c : Ch) : t.sdcnt c = s.sdcnt c := by
  obtain ⟨-, hwriter0, hwriter2, -⟩ := eachFieldHasItsWriters i s t h hreset
  cases c with
  | c0 => exact not_not.mp fun hchanged => hsvc (hwriter0 hchanged)
  | c1 => rfl
  | c2 => exact not_not.mp fun hchanged => hsvc (hwriter2 hchanged)

/-- One advance is one position on, less a whole turn where the counter wraps. -/
theorem advanceCount_turn (d n : Nat) : 1 + n = d * (if n = d then 1 else 0) + advanceCount d n := by
  unfold advanceCount
  split <;> omega

/-- One operation moves the counter by one position for an SVC, less a whole turn for an open gate. -/
theorem exec_sdcnt {c : Ch} {i : Instr} {s t : State} (hs : s.InCycle c) (h : exec i s = .next t)
    (hreset : i ≠ .reset) :
    t.InCycle c ∧ (if i = .svc then 1 else 0) + s.sdcnt c = divOf s.cfg c * gateCount c i s + t.sdcnt c := by
  obtain ⟨hcfg, -⟩ := exec_keeps_environment h
  by_cases hsvc : i = .svc
  · subst hsvc
    have hadv : t.sdcnt c = advanceCount (divOf s.cfg c) (s.sdcnt c) := by rw [eq_afterSvc h, afterSvc_sdcnt]
    obtain ⟨hpos, hle⟩ := advanceCount_bounds (divOf_pos s.cfg c) hs.le
    refine ⟨⟨by rwa [hadv], by rwa [hadv, hcfg]⟩, ?_⟩
    rw [if_pos rfl, gateCount_svc, hadv, advanceCount_turn]
  · have hkeep := exec_keeps_sdcnt h hreset hsvc c
    refine ⟨⟨by rw [hkeep]; exact hs.pos, by rw [hkeep, hcfg]; exact hs.le⟩, ?_⟩
    rw [if_neg hsvc, gateCount_of_ne_svc hsvc, hkeep, Nat.mul_zero]

theorem runOps_keeps_cfg {ops : List Instr} {s t : State} (h : runOps ops s = .next t) : t.cfg = s.cfg :=
  runOps_induction (P := fun u => u.cfg = s.cfg) (Q := fun _ => True)
    (fun _ _ _ _ hcfg hexec => (exec_keeps_environment hexec).left.trans hcfg) ops s t (fun _ _ => trivial) rfl h

/-- Over a run the counter moves by the number of SVCs, less a whole turn for each open gate. -/
theorem runOps_sdcnt {c : Ch} {ops : List Instr} {s t : State} (hs : s.InCycle c) (hreset : .reset ∉ ops)
    (h : runOps ops s = .next t) :
    t.InCycle c ∧ ops.count .svc + s.sdcnt c = divOf s.cfg c * openGates c ops s + t.sdcnt c := by
  induction ops generalizing s with
  | nil => cases h; exact ⟨hs, by simp⟩
  | cons i is ih =>
    obtain ⟨u, hu, ht⟩ := andThen_eq_next.mp h
    obtain ⟨hne, his⟩ := not_or.mp (List.mem_cons.not.mp hreset)
    obtain ⟨hcfg, -⟩ := exec_keeps_environment hu
    obtain ⟨hcycle, hone⟩ := exec_sdcnt hs hu (Ne.symm hne)
    obtain ⟨hend, hrest⟩ := ih hcycle his ht
    refine ⟨hend, ?_⟩
    rw [hcfg] at hrest
    rw [openGates_cons hu, Nat.mul_add, List.count_cons]
    simp only [beq_iff_eq]
    omega

/-- The open gates of a run and the position at its end are a quotient and a remainder (R91, R92). -/
theorem runOps_div_mod {c : Ch} {ops : List Instr} {s t : State} (hs : s.InCycle c) (hreset : .reset ∉ ops)
    (h : runOps ops s = .next t) :
    (ops.count .svc + s.sdcnt c - 1) / divOf s.cfg c = openGates c ops s ∧
      (ops.count .svc + s.sdcnt c - 1) % divOf s.cfg c = t.sdcnt c - 1 := by
  obtain ⟨⟨hpos, hle⟩, hturn⟩ := runOps_sdcnt hs hreset h
  rw [runOps_keeps_cfg h] at hle
  exact (Nat.div_mod_unique (divOf_pos s.cfg c)).mpr ⟨by omega, by omega⟩

/-- The number of open gates in a run, from the number of its SVCs and the phase at its start (R91, R92). -/
theorem openGates_eq {c : Ch} {ops : List Instr} {s t : State} (hs : s.InCycle c) (hreset : .reset ∉ ops)
    (h : runOps ops s = .next t) : openGates c ops s = (ops.count .svc + s.sdcnt c - 1) / divOf s.cfg c := by
  obtain ⟨hquotient, -⟩ := runOps_div_mod hs hreset h
  exact hquotient.symm

/-- The slowdown counter at the end of a run, from the number of its SVCs and the phase at its start (R91). -/
theorem sdcnt_eq_mod {c : Ch} {ops : List Instr} {s t : State} (hs : s.InCycle c) (hreset : .reset ∉ ops)
    (h : runOps ops s = .next t) : t.sdcnt c = (s.sdcnt c - 1 + ops.count .svc) % divOf s.cfg c + 1 := by
  obtain ⟨-, hremainder⟩ := runOps_div_mod hs hreset h
  obtain ⟨hend, -⟩ := runOps_sdcnt hs hreset h
  rw [Nat.add_comm (s.sdcnt c - 1), ← Nat.add_sub_assoc hs.pos, hremainder, Nat.sub_add_cancel hend.pos]

/-- The gate schedule (R91), from any phase of the slowdown counter. -/
theorem gate_iff_mod {c : Ch} {ops : List Instr} {s t : State} (hs : s.InCycle c) (hreset : .reset ∉ ops)
    (h : runOps ops s = .next t) : t.gate c = true ↔ (s.sdcnt c + ops.count .svc) % divOf s.cfg c = 0 := by
  obtain ⟨d, hd⟩ := Nat.exists_eq_add_of_le' (divOf_pos s.cfg c)
  have hstart := hs.pos
  have hnext : s.sdcnt c + ops.count .svc = s.sdcnt c - 1 + ops.count .svc + 1 := by omega
  rw [gate_iff, sdcnt_eq_mod hs hreset h, runOps_keeps_cfg h, hd, hnext, Nat.succ_mod_succ_eq_zero_iff,
    Nat.add_right_cancel_iff]

/-- As many SVCs as the divisor says turn the counter once, and so open the gate once (R91). -/
theorem openGates_of_one_turn {c : Ch} {ops : List Instr} {s t : State} (hs : s.InCycle c) (hreset : .reset ∉ ops)
    (h : runOps ops s = .next t) (hcount : ops.count .svc = divOf s.cfg c) : openGates c ops s = 1 := by
  have hphase : s.sdcnt c - 1 < divOf s.cfg c := Nat.sub_one_lt_of_le hs.pos hs.le
  rw [openGates_eq hs hreset h, hcount, Nat.add_sub_assoc hs.pos, Nat.add_div_left _ (divOf_pos s.cfg c),
    Nat.div_eq_of_lt hphase]

theorem resetFields_inCycle (s : State) (c : Ch) : s.resetFields.InCycle c := (resetFields_inv s).inCycle c

/-- Settles O34: RESET puts both counters in their cycles, at `SDINIT[0]` and `SDINIT[2]`. -/
theorem gateScheduleSinceReset : Obligations.GateScheduleSinceReset := by
  intro s ops t hreset h
  rw [runOps, exec_reset, andThen_next] at h
  have hcycle := resetFields_inCycle s
  have hcfg := runOps_keeps_cfg h
  refine ⟨sdcnt_eq_mod (hcycle .c0) hreset h, sdcnt_eq_mod (hcycle .c2) hreset h, gate_iff_mod (hcycle .c0) hreset h,
    gate_iff_mod (hcycle .c2) hreset h, fun c more u hmore hrun hcount => ?_⟩
  obtain ⟨hend, -⟩ := runOps_sdcnt (hcycle c) hreset h
  exact openGates_of_one_turn hend hmore hrun (hcount.trans (congrArg (divOf · c) hcfg.symm))

/-! ### The fade along a run (R92, R93, R95) -/

/-- A step is one move in the direction of the channel, and no move at the bound (R81, R86). -/
theorem stepTarget_getD_eq_fade (s : State) (c : Ch) :
    (s.stepTarget c).getD (s.duty.get c) = (s.dir.get c).fade (maxDuty s.cfg c) (s.duty.get c) 1 := by
  cases hd : s.dir.get c with
  | rising =>
    rw [stepTarget_rising hd, Dir.fade]
    split <;> simp only [Option.getD_some, Option.getD_none] <;> omega
  | falling =>
    rw [stepTarget_falling hd, Dir.fade]
    split <;> simp only [Option.getD_some, Option.getD_none]
    omega

/-- An SVC makes one move where it finds the gate open, and none elsewhere. -/
theorem dutyAfter_eq_fade (s : State) (c : Ch) :
    s.dutyAfter c = (s.dir.get c).fade (maxDuty s.cfg c) (s.duty.get c) (gateCount c .svc s) := by
  rw [State.dutyAfter, stepTarget_getD_eq_fade]
  cases hg : s.gate c <;> simp [gateCount, hg]

/-- An operation that holds the direction of a channel moves its duty by the gate it opens, and keeps its direction. -/
theorem exec_fade {c : Ch} {i : Instr} {s t : State} (hi : i.Holds c (s.dir.get c)) (h : exec i s = .next t) :
    t.dir.get c = s.dir.get c ∧
      t.duty.get c = (s.dir.get c).fade (maxDuty s.cfg c) (s.duty.get c) (gateCount c i s) := by
  obtain ⟨hreset, hsetst⟩ := hi
  obtain ⟨-, -, -, -, hwriter, -⟩ := eachFieldHasItsWriters i s t h hreset
  constructor
  · by_cases hdir : t.dir = s.dir
    · rw [hdir]
    · obtain ⟨m, rfl⟩ := hwriter hdir
      cases h
      exact (maskDirs_get m c).trans (hsetst m rfl)
  · by_cases hsvc : i = .svc
    · subst hsvc
      rw [eq_afterSvc h, State.afterSvc_duty, dutyAfter_eq_fade]
    · rw [exec_keeps_duty h hreset hsvc, gateCount_of_ne_svc hsvc, Dir.fade_zero]

/-- The whole fade: over a run that holds the direction of a channel, its duty makes one move for each open gate. -/
theorem runOps_fade {c : Ch} {ops : List Instr} {s t : State} (hops : ∀ i ∈ ops, i.Holds c (s.dir.get c))
    (h : runOps ops s = .next t) :
    t.duty.get c = (s.dir.get c).fade (maxDuty s.cfg c) (s.duty.get c) (openGates c ops s) := by
  induction ops generalizing s with
  | nil => cases h; exact (Dir.fade_zero _ _ _).symm
  | cons i is ih =>
    obtain ⟨u, hu, ht⟩ := andThen_eq_next.mp h
    obtain ⟨hi, his⟩ := List.forall_mem_cons.mp hops
    obtain ⟨hcfg, -⟩ := exec_keeps_environment hu
    obtain ⟨hdir, hduty⟩ := exec_fade hi hu
    rw [ih (by rwa [hdir]) ht, hdir, hcfg, hduty, Dir.fade_fade, openGates_cons hu]

theorem holds_of_no_setst {ops : List Instr} (hops : ∀ i ∈ ops, i ≠ .reset ∧ ∀ m, i ≠ .setst m) (c : Ch) (d : Dir) :
    ∀ i ∈ ops, i.Holds c d := fun i hi =>
  ⟨(hops i hi).left, fun m hm => absurd hm ((hops i hi).right m)⟩

theorem reset_not_mem_of_holds {ops : List Instr} {c : Ch} {d : Dir} (hops : ∀ i ∈ ops, i.Holds c d) : .reset ∉ ops :=
  fun hmem => (hops _ hmem).left rfl

/-! ### Rate (R92) -/

/-- Whatever the phase, `N` SVCs open the gate `N / DIV[c]` times, or once more. -/
theorem openGates_bounds {c : Ch} {ops : List Instr} {s t : State} (hs : s.InCycle c) (hreset : .reset ∉ ops)
    (h : runOps ops s = .next t) :
    ops.count .svc / divOf s.cfg c ≤ openGates c ops s ∧ openGates c ops s ≤ ops.count .svc / divOf s.cfg c + 1 := by
  have hpos := hs.pos
  have hle := hs.le
  rw [openGates_eq hs hreset h]
  constructor
  · exact Nat.div_le_div_right (by omega)
  · rw [← Nat.add_div_right _ (divOf_pos s.cfg c)]
    exact Nat.div_le_div_right (by omega)

/-- Where the divisor divides the number of SVCs, the phase cannot be seen. -/
theorem openGates_of_dvd {c : Ch} {ops : List Instr} {s t : State} (hs : s.InCycle c) (hreset : .reset ∉ ops)
    (h : runOps ops s = .next t) (hdvd : divOf s.cfg c ∣ ops.count .svc) :
    openGates c ops s = ops.count .svc / divOf s.cfg c := by
  have hphase : s.sdcnt c - 1 < divOf s.cfg c := Nat.sub_one_lt_of_le hs.pos hs.le
  rw [openGates_eq hs hreset h, Nat.add_sub_assoc hs.pos, Nat.add_div_of_dvd_right hdvd, Nat.div_eq_of_lt hphase,
    Nat.add_zero]

/-- Settles O35. -/
theorem rateOfTheGate : Obligations.RateOfTheGate := by
  refine ⟨fun c ops s t hpos hle hreset h => ?_, fun c ops s t hops h => ⟨fun hdir hroom => ?_, fun hdir hroom => ?_⟩⟩
  · have hbounds := openGates_bounds ⟨hpos, hle⟩ hreset h
    exact ⟨openGates_of_dvd ⟨hpos, hle⟩ hreset h, by omega⟩
  · rw [runOps_fade (holds_of_no_setst hops c _) h, hdir, Dir.fade_rising _ (by omega), Nat.min_eq_right hroom]
  · rw [runOps_fade (holds_of_no_setst hops c _) h, hdir, Dir.fade, Nat.sub_add_cancel hroom]

/-! ### The closed form (R93), convergence (R96) and the length of a ramp (R97) -/

/-- Settles O36. -/
theorem fadeInClosedForm : Obligations.FadeInClosedForm := by
  intro c ops s t hs hops h
  have hholds := holds_of_no_setst hops c (s.dir.get c)
  have hfade := runOps_fade hholds h
  rw [openGates_eq (hs.inCycle c) (reset_not_mem_of_holds hholds) h] at hfade
  exact ⟨fun hdir => by rw [hfade, hdir, Dir.fade_rising _ (hs.duty_le c)], fun hdir => by rw [hfade, hdir]; rfl⟩

/-- A run with `MAXDUTY[c] * DIV[c]` SVCs or more that holds the direction of a channel brings its duty to the bound. -/
theorem runOps_reaches_bound {c : Ch} {ops : List Instr} {s t : State} (hs : s.Inv)
    (hops : ∀ i ∈ ops, i.Holds c (s.dir.get c)) (h : runOps ops s = .next t)
    (hcount : maxDuty s.cfg c * divOf s.cfg c ≤ ops.count .svc) :
    t.duty.get c = (s.dir.get c).bound (maxDuty s.cfg c) := by
  obtain ⟨henough, -⟩ := openGates_bounds (hs.inCycle c) (reset_not_mem_of_holds hops) h
  rw [runOps_fade hops h]
  exact Dir.fade_of_le _ (hs.duty_le c) (((Nat.le_div_iff_mul_le (divOf_pos s.cfg c)).mpr hcount).trans henough)

/-- Settles O37. -/
theorem fadeConverges : Obligations.FadeConverges := by
  intro c ops s t hs hreset hheld h hcount
  have hops : ∀ i ∈ ops, i.Holds c (s.dir.get c) := fun i hi =>
    ⟨fun heq => hreset (heq ▸ hi), fun m heq => hheld m (heq ▸ hi)⟩
  rw [runOps_reaches_bound hs hops h hcount]
  cases s.dir.get c <;> rfl

/-- Settles O39: a full ramp takes `MAXDUTY[c]` open gates. -/
theorem fullRampLength : Obligations.FullRampLength := by
  intro c ops s t hs hdir hduty hmax hops h
  have hholds := holds_of_no_setst hops c (s.dir.get c)
  refine ⟨fun hfull => ?_, fun hcount => ?_, ?_⟩
  · have hfade := runOps_fade hholds h
    rw [hfull, hdir, hduty, Dir.fade_rising _ (Nat.zero_le _)] at hfade
    have hgates : maxDuty s.cfg c ≤ openGates c ops s := by omega
    rw [openGates_eq (hs.inCycle c) (reset_not_mem_of_holds hholds) h, Nat.le_div_iff_mul_le (divOf_pos s.cfg c)]
      at hgates
    obtain ⟨hpos, hle⟩ := hs.inCycle c
    have hturn := Nat.le_mul_of_pos_left (divOf s.cfg c) hmax
    rw [Nat.sub_one_mul]
    omega
  · rw [runOps_reaches_bound hs hholds h hcount, hdir]; rfl
  · rw [maxDuty_eq_div]
    exact Nat.div_mul_le_self _ _

/-! ### Ticks (30_encoding.md R69) -/

theorem repeatOp_exec (i : Instr) (n : Nat) (s : State) : repeatOp (exec i) n s = runOps (List.replicate n i) s := by
  induction n generalizing s with
  | zero => rfl
  | succ n ih => rw [repeatOp, List.replicate_succ, runOps, funext ih]

theorem runOps_singleton (i : Instr) (s : State) : runOps [i] s = exec i s := by
  rw [runOps]; cases exec i s <;> rfl

/-- TICK goes through only where it is defined, and then it is a run of counts of the tick timer with one SVC. -/
theorem runOps_of_tick {s t : State} (h : tick s = .next t) :
    runOps (List.replicate (s.cfg.params.top1 + 1) .t1clk ++ [.svc]) s = .next t := by
  by_cases hready : s.run = false ∨ s.tickpend = true
  · rw [tick_of_not_ready hready] at h
    cases h
  · obtain ⟨hrun, ht⟩ := not_or.mp hready
    rw [tick_of_ready (Bool.eq_true_of_not_eq_false hrun) (Bool.eq_false_of_not_eq_true ht)] at h
    rwa [runOps_append, ← repeatOp_exec, funext (runOps_singleton .svc)]

/-- Any number of ticks are a run with as many SVCs, between which only the tick timer counts. -/
theorem runOps_of_ticks {n : Nat} {s t : State} (h : repeatOp tick n s = .next t) :
    ∃ ops, (∀ i ∈ ops, i = .t1clk ∨ i = .svc) ∧ ops.count .svc = n ∧ runOps ops s = .next t := by
  induction n generalizing s with
  | zero => exact ⟨[], nofun, rfl, h⟩
  | succ n ih =>
    obtain ⟨u, hu, ht⟩ := andThen_eq_next.mp h
    obtain ⟨ops, hmem, hcount, hrun⟩ := ih ht
    refine ⟨List.replicate (s.cfg.params.top1 + 1) .t1clk ++ [.svc] ++ ops, fun i hi => ?_, ?_, ?_⟩
    · simp only [List.mem_append, List.mem_replicate, List.mem_singleton] at hi
      rcases hi with (⟨-, rfl⟩ | rfl) | hi
      · exact .inl rfl
      · exact .inr rfl
      · exact hmem i hi
    · simp [List.count_replicate, hcount]
    · rw [runOps_append, runOps_of_tick hu, andThen_next, hrun]

/-- Settles O38: the ticks go through one after another, and as a run they hold every direction. -/
theorem ticksReachTheBound : Obligations.TicksReachTheBound := by
  intro c s n hs hrun ht
  obtain ⟨t, hticks, -⟩ := repeatOp_completes (fun _ => tick_betweenCalls) n ⟨hs, ht, hrun, rfl⟩
  refine ⟨t, hticks, fun hn => ?_⟩
  obtain ⟨ops, hmem, hcount, hops⟩ := runOps_of_ticks hticks
  have hno : ∀ i ∈ ops, i ≠ .reset ∧ ∀ m, i ≠ .setst m := fun i hi => by
    rcases hmem i hi with rfl | rfl <;> simp
  rw [runOps_reaches_bound hs (holds_of_no_setst hno c _) hops (hcount ▸ hn)]
  cases s.dir.get c <;> rfl

end Machine

end Sys2Proof
end

section
/-! The timer rules (42_timer_events.md): one count of each timer (R98, R100, R101), overruns (R102), the independence of
the timers (R103), the buffered update (R104) and the output (R105, R106). -/

namespace Sys2Proof.Machine

/-! ### Overruns (R102) -/

/-- A flag that is 1 already stays 1. -/
@[simp] theorem raiseTick_raiseTick (s : State) : s.raiseTick.raiseTick = s.raiseTick := rfl

/-- Settles O16: each turn of the tick timer raises the tick, and the second finds it raised. -/
theorem overrunMergesTicks : Obligations.OverrunMergesTicks := by
  intro s hrun hcnt1
  have hfirst := repeatOp_t1clk_full_turn hrun hcnt1
  have hsecond : repeatOp (exec .t1clk) (s.cfg.params.top1 + 1) s.raiseTick = .next s.raiseTick.raiseTick :=
    repeatOp_t1clk_full_turn hrun hcnt1
  refine ⟨?_, hfirst, fun t h => by rw [eq_afterSvc h, State.afterSvc_tickpend]⟩
  rw [two_mul, repeatOp_add, hfirst, andThen_next, hsecond, raiseTick_raiseTick]

/-! ### The buffered update (R104) -/

/-- Settles O20: of the two operations that write `CCV`, T0CLK does so only at its wrap. -/
theorem compareInEffectChangesOnlyAtTheBoundary : Obligations.CompareInEffectChangesOnlyAtTheBoundary := by
  intro i s t h hccv
  by_cases hreset : i = .reset
  · exact .inr hreset
  · obtain ⟨-, -, -, -, -, -, hwriter, -⟩ := eachFieldHasItsWriters i s t h hreset
    obtain rfl := hwriter hccv
    cases h
    rcases countPwm_cases s with ⟨htop, e⟩ | ⟨-, e⟩ <;> rw [e] at hccv ⊢
    · exact .inl ⟨rfl, htop, rfl⟩
    · exact absurd rfl hccv

/-! ### The output (R105, R106) -/

theorem out_eq_true_iff (s : State) (c : Ch) : s.out c = true ↔ s.cnt0 < s.ccv.get c := decide_eq_true_iff

theorem out_eq_false_iff (s : State) (c : Ch) : s.out c = false ↔ s.ccv.get c ≤ s.cnt0 :=
  decide_eq_false_iff_not.trans Nat.not_lt

/-- Over the first `n` counts of a period the output is active at those below the compare value. -/
theorem countP_out_range (s : State) (c : Ch) (n : Nat) :
    ((List.range n).countP fun k => State.out { s with cnt0 := k } c) = min n (s.ccv.get c) := by
  induction n with
  | zero => simp
  | succ n ih =>
    rw [List.range_succ, List.countP_append, ih, List.countP_singleton]
    simp only [out_eq_true_iff]
    split <;> omega

/-- Settles O21: a count of the period is active or inactive, so the inactive ones are what is left. -/
theorem outputIsActiveForDutyCounts : Obligations.OutputIsActiveForDutyCounts := by
  refine ⟨out_eq_true_iff, fun s c hle => ?_⟩
  have hactive : ((List.range (s.cfg.params.top0 + 1)).countP fun n => State.out { s with cnt0 := n } c) =
      s.ccv.get c := by
    rw [countP_out_range, Nat.min_eq_right (hle.trans (Nat.le_succ _))]
  have htotal := List.length_eq_countP_add_countP (fun n => State.out { s with cnt0 := n } c)
    (l := List.range (s.cfg.params.top0 + 1))
  simp only [List.length_range, hactive, Bool.not_eq_true, Bool.decide_eq_false] at htotal
  exact ⟨hactive, by omega⟩

theorem outPort_eq_zero {s : State} (h : ∀ c, s.out c = false) : s.outPort = 0 := by
  rw [State.outPort, h, h, h]; rfl

/-- Settles O22: the compare values in effect are at most `TOP0`. -/
theorem outputAtTheExtremes : Obligations.OutputAtTheExtremes := by
  refine ⟨fun s c hccv => ?_, fun s hs htop => outPort_eq_zero fun c => ?_⟩
  · rw [out_eq_false_iff, hccv]
    exact Nat.zero_le _
  · rw [out_eq_false_iff, htop]
    exact (hs.ccv_le c).trans (maxDuty_le_top0 s.cfg c)

/-! ### One count of each timer (R98, R100, R101) -/

/-- Settles O13. -/
theorem pwmTimerCountsAndWraps : Obligations.PwmTimerCountsAndWraps := by
  refine ⟨rfl, fun s => ⟨_, exec_t0clk s, countPwm_wrap, countPwm_count, fun hle => ?_⟩⟩
  obtain ⟨hcfg, -⟩ := exec_keeps_environment (exec_t0clk s)
  rw [hcfg]
  exact countPwm_cnt0_le hle

/-- Settles O14. -/
theorem periodLatchCopiesTheBuffers : Obligations.PeriodLatchCopiesTheBuffers := fun s =>
  ⟨Tri.get_ofFn s.memRead, rfl⟩

/-- Settles O15. -/
theorem tickTimerCountsAndRaisesTheTick : Obligations.TickTimerCountsAndRaisesTheTick :=
  ⟨rfl, fun s => ⟨_, exec_t1clk s, countTick_held, countTick_wrap, countTick_count⟩⟩

/-! ### The timers do not see each other (R103) -/

/-- The tick timer neither reads nor writes what the PWM timer writes. -/
theorem countTick_withPwm (s : State) (n : Nat) (v : Tri Nat) :
    State.countTick { s with cnt0 := n, ccv := v } = { s.countTick with cnt0 := n, ccv := v } := by
  rcases countTick_cases s with ⟨hrun, e⟩ | ⟨hrun, htop, e⟩ | ⟨hrun, htop, e⟩ <;> rw [e]
  · exact countTick_held hrun
  · exact countTick_wrap hrun htop
  · exact countTick_count hrun htop

/-- The tick timer writes nothing that the PWM timer reads. -/
theorem countTick_keeps_pwm (s : State) :
    s.countTick.cfg = s.cfg ∧ s.countTick.cnt0 = s.cnt0 ∧ s.countTick.ccv = s.ccv ∧ s.countTick.ccvb = s.ccvb := by
  rcases countTick_cases s with ⟨-, e⟩ | ⟨-, -, e⟩ | ⟨-, -, e⟩ <;> rw [e] <;> exact ⟨rfl, rfl, rfl, rfl⟩

theorem countTick_countPwm (s : State) : s.countPwm.countTick = s.countTick.countPwm := by
  obtain ⟨hcfg, hcnt0, hccv, hccvb⟩ := countTick_keeps_pwm s
  rcases countPwm_cases s with ⟨htop, e⟩ | ⟨htop, e⟩ <;> rw [e]
  · rw [countTick_withPwm, countPwm_wrap (by rwa [hcnt0, hcfg]), ← hccvb]
  · rw [countTick_withPwm, countPwm_count (by rwa [hcnt0, hcfg]), hcnt0, ← hccv]

/-- Settles O17. -/
theorem timersCommute : Obligations.TimersCommute := by
  refine fun s => ⟨?_, s.countPwm.countTick, rfl⟩
  rw [exec_t0clk, exec_t1clk, andThen_next, andThen_next, exec_t0clk, exec_t1clk, countTick_countPwm]

end Sys2Proof.Machine
end

section
/-! The exception rules (60_exceptions.md): the order within one clock cycle (R117), response status codes (R112) and
the service obligation (R116). -/

namespace Sys2Proof

namespace Machine

/-! ### The order within one cycle (R117) -/

/-- Performing a signal leaves the input lines to come as they are. -/
theorem perform_keeps_inputs {sig : Signal} {s t : State} (h : perform sig s = .next t) : t.inputs = s.inputs := by
  rcases perform_cases h with ⟨i, -, hexec⟩ | ⟨r, -, rfl⟩
  · exact (exec_keeps_environment hexec).right
  · exact s.cmdReject_inputs

/-- `s` with the cycle `p` in front of its cycles to come. -/
def State.enterCycle (s : State) (p : Cycle) : State := { s with inputs := p :: s.inputs }

/-- What is left of the present cycle is not seen by the operation performed in it. -/
theorem perform_enterCycle (sig : Signal) (s : State) (p : Cycle) :
    perform sig (s.enterCycle p) = andThen (perform sig s) fun t => .next (t.enterCycle p) := by
  rw [State.enterCycle, perform_withInputs]
  cases h : perform sig s with
  | next t => rw [andThen_next, andThen_next, State.enterCycle, perform_keeps_inputs h]
  | fault r => rfl
  | refused r => rfl

/-- The signal due in a cycle is performed, and what is left of the cycle follows. -/
theorem repeatOp_step_of_due {s : State} {p q : Cycle} {sig : Signal} (hdue : (s.enterCycle p).due = some sig)
    (hconsume : (s.enterCycle p).consume sig = s.enterCycle q) (n : Nat) :
    repeatOp step (n + 1) (s.enterCycle p) = andThen (perform sig s) fun t => repeatOp step n (t.enterCycle q) := by
  rw [repeatOp, step_of_due hdue, hconsume, perform_enterCycle]
  cases perform sig s <;> rfl

/-- A line takes the one step of its operation if it is raised and none if it is not; `q` is the cycle without it. -/
theorem repeatOp_step_of_line {s : State} {p q : Cycle} {sig : Signal} {b : Bool}
    (hraised : b = true → (s.enterCycle p).due = some sig ∧ (s.enterCycle p).consume sig = s.enterCycle q)
    (hdown : b = false → p = q) (n : Nat) :
    repeatOp step (b.toNat + n) (s.enterCycle p) =
      andThen (if b then perform sig s else .next s) fun t => repeatOp step n (t.enterCycle q) := by
  cases b with
  | false => rw [hdown rfl, Bool.toNat_false, Nat.zero_add, if_neg Bool.false_ne_true, andThen_next]
  | true =>
    obtain ⟨hdue, hconsume⟩ := hraised rfl
    rw [Bool.toNat_true, Nat.add_comm, repeatOp_step_of_due hdue hconsume, if_pos rfl]

section
variable (s : State) (w : Word8) (cmdValid t0clkEn t1clkEn : Bool)

/-- RESET drops the rest of its cycle, whatever is raised in it. -/
theorem step_reset_first (engineEn : Bool) :
    step (s.enterCycle ⟨true, cmdValid, w, t0clkEn, t1clkEn, engineEn⟩) = exec .reset s := rfl

/-- Without RESET the host command comes first. -/
theorem repeatOp_step_command (n : Nat) :
    repeatOp step (cmdValid.toNat + n) (s.enterCycle ⟨false, cmdValid, w, t0clkEn, t1clkEn, true⟩) =
      andThen (if cmdValid then perform (.cmd w) s else .next s) fun t =>
        repeatOp step n (t.enterCycle ⟨false, false, w, t0clkEn, t1clkEn, true⟩) :=
  repeatOp_step_of_line (by rintro rfl; exact ⟨rfl, rfl⟩) (by rintro rfl; rfl) n

/-- T0CLK comes after the host command. -/
theorem repeatOp_step_t0clk (n : Nat) :
    repeatOp step (t0clkEn.toNat + n) (s.enterCycle ⟨false, false, w, t0clkEn, t1clkEn, true⟩) =
      andThen (if t0clkEn then exec .t0clk s else .next s) fun t =>
        repeatOp step n (t.enterCycle ⟨false, false, w, false, t1clkEn, true⟩) :=
  repeatOp_step_of_line (sig := .event .t0clkEn) (by rintro rfl; exact ⟨rfl, rfl⟩) (by rintro rfl; rfl) n

/-- T1CLK comes after T0CLK. -/
theorem repeatOp_step_t1clk (n : Nat) :
    repeatOp step (t1clkEn.toNat + n) (s.enterCycle ⟨false, false, w, false, t1clkEn, true⟩) =
      andThen (if t1clkEn then exec .t1clk s else .next s) fun t =>
        repeatOp step n (t.enterCycle ⟨false, false, w, false, false, true⟩) :=
  repeatOp_step_of_line (sig := .event .t1clkEn) (by rintro rfl; exact ⟨rfl, rfl⟩) (by rintro rfl; rfl) n

/-- SVC is last: with every line down the cycle ends, with an SVC if a tick is pending. -/
theorem repeatOp_step_svc :
    repeatOp step 1 (s.enterCycle ⟨false, false, w, false, false, true⟩) =
      if s.tickpend then exec .svc s else .next s := by
  have hdue : (s.enterCycle ⟨false, false, w, false, false, true⟩).due =
      if s.tickpend then some (.event .tickpend) else none := rfl
  rw [repeatOp_one]
  split_ifs at hdue ⊢
  · exact step_of_due hdue
  · exact step_of_idle hdue

end

/-- Settles O55: the steps of a cycle, line by line, up to its SVC. -/
theorem cycleFollowsTheFixedOrder : Obligations.CycleFollowsTheFixedOrder := by
  rintro s ⟨rst, cmdValid, w, t0clkEn, t1clkEn, engineEn⟩ rest hinputs rfl
  obtain ⟨u, hs, hu⟩ : ∃ u, s = State.enterCycle u ⟨rst, cmdValid, w, t0clkEn, t1clkEn, true⟩ ∧
      { s with inputs := rest } = u :=
    ⟨_, by rw [State.enterCycle, ← hinputs], rfl⟩
  rw [hu, hs]
  constructor <;> rintro rfl
  · rw [repeatOp_one, step_reset_first]
  · simp only [Nat.add_assoc, repeatOp_step_command, repeatOp_step_t0clk, repeatOp_step_t1clk, repeatOp_step_svc]

end Machine

/-! ### Response status codes (R112) -/

/-- The ten defined words, read as one range and two single words (30_encoding.md R60 to R62). -/
theorem decodeCmd_ok_iff (w : Word8) :
    (∃ i, decodeCmd w = .ok i) ↔ w = 0x00 ∨ (0x40 ≤ w.toNat ∧ w.toNat ≤ 0x47) ∨ w = 0x80 := by
  have hset : (0x40 ≤ w.toNat ∧ w.toNat ≤ 0x47) ↔ w &&& 0xF8 = 0x40 := by
    rw [and_setstMask_eq_iff]
    omega
  rw [hset, ← decodeCmd_setst_iff]
  constructor
  · rintro ⟨i, hd⟩
    have hword := encode_of_decodeCmd hd
    rcases hostCommand_of_decodeCmd hd with rfl | ⟨m, rfl⟩ | rfl
    · exact .inl (Signal.cmd.inj hword).symm
    · exact .inr (.inl ⟨m, hd⟩)
    · exact .inr (.inr (Signal.cmd.inj hword).symm)
  · rintro (rfl | ⟨m, hd⟩ | rfl)
    · exact ⟨_, decode_encode .getst⟩
    · exact ⟨_, hd⟩
    · exact ⟨_, decode_encode .run⟩

namespace Machine

/-- Each of the host commands answers OK. -/
theorem rspStatus_of_decodeCmd {w : Word8} {i : Instr} {s t : State} (hd : decodeCmd w = .ok i)
    (h : exec i s = .next t) : t.rspStatus = .ok := by
  rcases hostCommand_of_decodeCmd hd with rfl | ⟨m, rfl⟩ | rfl <;> cases h <;> rfl

/-- Settles O12: a word that decodes answers OK, and `CmdReject` answers REJECT. -/
theorem responseStatusCodes : Obligations.ResponseStatusCodes := by
  intro w s
  obtain ⟨t, ht, -⟩ := hostReachesOnlyItsOwnFields w s
  refine ⟨t, ht, ?_⟩
  rw [← decodeCmd_ok_iff]
  rcases perform_cases ht with ⟨i, hd, hexec⟩ | ⟨r, hd, rfl⟩
  · rw [rspStatus_of_decodeCmd hd hexec]
    exact ⟨fun _ => ⟨i, hd⟩, fun _ => rfl⟩
  · rw [State.cmdReject_rspStatus]
    refine ⟨nofun, fun ⟨i, hi⟩ => ?_⟩
    cases hd.symm.trans hi

/-! ### The service obligation (R116, 70_reset_and_hazards.md R138) -/

/-- T1CLK is due only after every line before it in R117's order. -/
theorem ports_of_due_t1clk {s : State} (h : s.due = some (.event .t1clkEn)) :
    s.ports.rst = false ∧ s.ports.cmdValid = false ∧ s.ports.t0clkEn = false ∧ s.ports.t1clkEn = true := by
  unfold State.due at h
  split_ifs at h with hrst hcmd ht0 ht1
  · cases h
  · cases h
  · cases h
  · exact ⟨by simpa using hrst, by simpa using hcmd, by simpa using ht0, ht1⟩
  · cases h

/-- After the end of the list the engine has its turn as well. -/
theorem State.Clocked.engineEn_ports {s : State} (hs : s.Clocked) : s.ports.engineEn = true := by
  unfold State.ports
  cases hinputs : s.inputs with
  | nil => rfl
  | cons p rest => exact hs p (by simp [hinputs])

theorem State.Clocked.endCycle {s : State} (hs : s.Clocked) : s.endCycle.Clocked :=
  fun p hp => hs p (List.mem_of_mem_tail hp)

theorem State.Clocked.withPorts {s : State} (hs : s.Clocked) {p : Cycle} (hp : p.engineEn = true) :
    (s.withPorts p).Clocked := by
  intro q hq
  rcases List.mem_cons.mp hq with rfl | htail
  · exact hp
  · exact hs q (List.mem_of_mem_tail htail)

/-- Taking an operation out of a cycle leaves the engine its turn. -/
theorem State.Clocked.consume {s : State} (hs : s.Clocked) (sig : Signal) : (s.consume sig).Clocked := by
  cases sig with
  | cmd w => exact hs.withPorts hs.engineEn_ports
  | event l =>
    cases l with
    | rst | tickpend => exact hs.endCycle
    | t0clkEn | t1clkEn => exact hs.withPorts hs.engineEn_ports

theorem step_keeps_clocked {s t : State} (hs : s.Clocked) (h : step s = .next t) : t.Clocked := by
  cases hdue : s.due with
  | none => rw [step_of_idle hdue] at h; cases h; exact hs.endCycle
  | some sig =>
    rw [step_of_due hdue] at h
    unfold State.Clocked
    rw [perform_keeps_inputs h]
    exact hs.consume sig

/-- With the engine's turn given and no line raised, a pending tick is what is due. -/
theorem due_of_tickpend {s : State} (hs : s.Clocked) (hfirst : s.TickFirst) (ht : s.tickpend = true) :
    s.due = some (.event .tickpend) := by
  obtain ⟨hrst, hcmd, ht0, ht1⟩ := hfirst ht
  simp [State.due, hrst, hcmd, ht0, ht1, hs.engineEn_ports, ht]

theorem step_of_tickpend {s : State} (hs : s.Clocked) (hfirst : s.TickFirst) (ht : s.tickpend = true) :
    step s = exec .svc s.endCycle :=
  step_of_due (due_of_tickpend hs hfirst ht)

/-- Only T1CLK raises the tick (10_state.md R23, R32). -/
theorem eq_t1clk_of_exec_raises {i : Instr} {s t : State} (h : exec i s = .next t) (hs : s.tickpend = false)
    (ht : t.tickpend = true) : i = .t1clk := by
  have hreset : i ≠ .reset := by rintro rfl; cases h; cases ht
  obtain ⟨-, -, -, -, -, -, -, -, -, -, hwriter⟩ := eachFieldHasItsWriters i s t h hreset
  rcases hwriter (by simp [hs, ht]) with ⟨hi, -⟩ | ⟨-, hclear⟩
  · exact hi
  · exact absurd ht (by simp [hclear])

/-- A step that raises the tick is a T1CLK: neither `CmdReject` nor the end of a cycle writes the flag. -/
theorem due_t1clk_of_step_raises {s t : State} (h : step s = .next t) (hs : s.tickpend = false)
    (ht : t.tickpend = true) : s.due = some (.event .t1clkEn) := by
  rcases step_cases h with ⟨sig, i, hdue, hd, hexec⟩ | ⟨sig, r, -, -, rfl⟩ | ⟨-, rfl⟩
  · obtain rfl := eq_t1clk_of_exec_raises hexec ((consume_tickpend s sig).trans hs) ht
    rw [hdue, ← decode_eq_ok_iff.mp hd]
    rfl
  · rw [State.cmdReject_tickpend, consume_tickpend, hs] at ht
    cases ht
  · rw [State.endCycle_tickpend, hs] at ht
    cases ht

/-- T1CLK is the last of the lines, so none is raised after it in its cycle. -/
theorem step_t1clk_ports {s t : State} (hdue : s.due = some (.event .t1clkEn)) (h : step s = .next t) :
    t.ports.rst = false ∧ t.ports.cmdValid = false ∧ t.ports.t0clkEn = false ∧ t.ports.t1clkEn = false := by
  obtain ⟨hrst, hcmd, ht0, -⟩ := ports_of_due_t1clk hdue
  rw [step_of_due hdue] at h
  rw [State.ports, perform_keeps_inputs h]
  exact ⟨hrst, hcmd, ht0, rfl⟩

/-- A pending tick is served by the step, and a tick raised by it is raised by the last line of the cycle. -/
theorem step_keeps_tickFirst {s t : State} (hs : s.Clocked) (hfirst : s.TickFirst) (h : step s = .next t) :
    t.TickFirst := by
  intro ht
  cases hpending : s.tickpend with
  | true =>
    rw [step_of_tickpend hs hfirst hpending] at h
    cases eq_afterSvc h
    cases ht
  | false => exact step_t1clk_ports (due_t1clk_of_step_raises h hpending ht) h

/-- Where no line is raised over a pending tick, T1CLK is due only with none pending. -/
theorem tickpend_of_due_t1clk {s : State} (hfirst : s.TickFirst) (hdue : s.due = some (.event .t1clkEn)) :
    s.tickpend = false := by
  obtain ⟨-, -, -, hraised⟩ := ports_of_due_t1clk hdue
  by_contra ht
  obtain ⟨-, -, -, hdown⟩ := hfirst (Bool.eq_true_of_not_eq_false ht)
  exact absurd hraised (by simp [hdown])

/-- Settles O56: every step keeps the two conditions, and no tick is pending at reset. -/
theorem clockedRunsLoseNoTick : Obligations.ClockedRunsLoseNoTick :=
  ⟨fun _ _ hs hfirst h => ⟨step_keeps_clocked hs h, step_keeps_tickFirst hs hfirst h⟩,
    fun _ => step_of_tickpend, fun _ => tickpend_of_due_t1clk, fun _ _ => nofun⟩

end Machine

end Sys2Proof
end

section
/-! The reset rules (70_reset_and_hazards.md): RESET (R132), the boot (R134) and the latency of the light (R142). -/

namespace Sys2Proof.Machine

/-! ### The latency of the light (R142) -/

/-- Settles O24: the one latch of a PERIOD takes the buffers, and by the invariants these hold the duties. -/
theorem onePeriodShowsTheDuty : Obligations.OnePeriodShowsTheDuty := fun s hs =>
  ⟨_, periodLatchesExactlyOnce s hs.cnt0_le, rfl, hs.ccvb_duty⟩

/-! ### Before RUN (R134) -/

/-- No operation but RUN starts the tick timer: RESET stops it, and nothing else writes `RUN` (10_state.md R24, R32). -/
theorem exec_keeps_stopped {i : Instr} {s t : State} (h : exec i s = .next t) (hne : i ≠ .run) (hstopped : s.run = false) :
    t.run = false := by
  by_cases hreset : i = .reset
  · subst hreset; cases h; exact s.resetFields_run
  · obtain ⟨-, -, -, -, -, -, -, -, -, hwriter, -⟩ := eachFieldHasItsWriters i s t h hreset
    by_contra hstarted
    obtain ⟨hrun, -⟩ := hwriter fun hsame => hstarted (hsame.trans hstopped)
    exact hne hrun

/-- A run without RUN keeps the invariants with the tick timer stopped. -/
theorem runOps_keeps_stopped {ops : List Instr} {s t : State} (hops : .run ∉ ops) (hs : s.Inv) (hstopped : s.run = false)
    (h : runOps ops s = .next t) : t.Inv ∧ t.run = false :=
  runOps_induction (P := fun u => u.Inv ∧ u.run = false) (Q := (· ≠ .run))
    (fun _ _ _ hne ⟨hu, hrun⟩ hexec => ⟨exec_keeps_inv hu hexec, exec_keeps_stopped hexec hne hrun⟩)
    ops s t (fun _ hi => ne_of_mem_of_not_mem hi hops) ⟨hs, hstopped⟩ h

/-- There is no SVC where no tick is pending (41_fade_engine.md R80). -/
theorem exec_svc_ne_next {s : State} (ht : s.tickpend = false) (t : State) : exec .svc s ≠ .next t := by
  intro h
  obtain ⟨hpending, -, -⟩ := execSvc_eq_next.mp h
  exact absurd hpending (by simp [ht])

/-- Settles O43: clause 7 of the invariants says what holds while the tick timer is stopped, which it is from RESET on. -/
theorem nothingFadesBeforeRun : Obligations.NothingFadesBeforeRun := by
  intro ops s t hops h
  rw [runOps, exec_reset, andThen_next] at h
  obtain ⟨hinv, hstopped⟩ := runOps_keeps_stopped hops (resetFields_inv s) s.resetFields_run h
  obtain ⟨hclear, -, hduty⟩ := hinv.idle hstopped
  exact ⟨hstopped, hclear, exec_svc_ne_next hclear, hduty⟩

/-! ### RESET (R132) -/

/-- RESET is the first in the order of 60_exceptions.md R117. -/
theorem due_of_rst {s : State} (h : s.ports.rst = true) : s.due = some (.event .rst) := if_pos h

/-- Settles O41. -/
theorem resetRestoresTheResetValues : Obligations.ResetRestoresTheResetValues := by
  refine ⟨rfl, fun s hrst => step_of_due (due_of_rst hrst), fun s => ⟨_, exec_reset s, fun c => ?_, ?_⟩⟩
  · exact ⟨Tri.get_all 0 c, Tri.get_all _ c, Tri.get_all 0 c, Tri.get_all 0 c⟩
  · exact ⟨s.resetFields_sdcnt0, s.resetFields_sdcnt2, s.resetFields_mask, s.resetFields_run, s.resetFields_tickpend,
      s.resetFields_cnt0, s.resetFields_cnt1, _, exec_getst _, rfl⟩

end Sys2Proof.Machine
end
